-- ==== Sys2Proof/Word.lean ====
section
/-! DEFINITION. The machine's words (00_scope.md R11, R12): a byte is 8 bits, `PC` is 16 bits, a framebuffer pixel
is 32 bits. All are unsigned; no rule reads any value as signed. -/

namespace Sys2Proof

/-- A byte: a memory byte, or one of the registers `SP`, `A`, `X`, `Y`, `P` (10_state.md R20). -/
abbrev Byte := BitVec 8

/-- A 16-bit word: the program counter and every address of the memory map (10_state.md R21). -/
abbrev Word := BitVec 16

/-- A framebuffer pixel (46_framebuffer.md R219). -/
abbrev Pixel := BitVec 32

end Sys2Proof
end

