-- ==== Sys2Proof/Syntax.lean ====
section
/-! DEFINITION. The instruction set (30_encoding.md R95): four kinds of instruction, one constructor each. -/

namespace Sys2Proof

/-- An instruction with its operands. The opcode table's 253 `DNOP` rows are one instruction whose opcode byte is its
field (30_encoding.md R98, R100: `DNOP $nn`; log 25). -/
inductive Instr where
  /-- `NOP`, opcode 0xEA, format `OP` (42_no_operation.md R170). -/
  | nop
  /-- `JMP`, opcode 0x4C, format `OP_ABS16` (43_jump.md R180). -/
  | jmp (target : Word)
  /-- `LDA`, opcode 0xA9, format `OP_IMM8` (44_load_accumulator.md R190). -/
  | lda (imm : Byte)
  /-- `DNOP`, every other opcode, format `OP` (42_no_operation.md R171). -/
  | dnop (opcode : Byte)
  deriving DecidableEq, Repr

end Sys2Proof
end

