-- ==== Sys2Proof/WellFormed.lean ====
section
/-! DEFINITION. Which terms of `Instr` stand for an instruction of the machine. -/

namespace Sys2Proof

/-- Opcode of `NOP` (30_encoding.md R95). -/
@[simp] abbrev opNop : Byte := 0xEA
/-- Opcode of `JMP` (30_encoding.md R95). -/
@[simp] abbrev opJmp : Byte := 0x4C
/-- Opcode of `LDA` (30_encoding.md R95). -/
@[simp] abbrev opLda : Byte := 0xA9

/-- Whether the operands are ones the encoding admits. All operand bytes of `JMP` and `LDA` are legal
(30_encoding.md R97); a `DNOP` has none of the three named opcodes (30_encoding.md R96, R100). -/
def Instr.wellFormed : Instr → Bool
  | .nop    => true
  | .jmp _  => true
  | .lda _  => true
  | .dnop b => b != opNop && b != opJmp && b != opLda

end Sys2Proof
end

