-- ==== Sys2Proof/Decode.lean ====
section
/-! DEFINITION. Decoding and encoding (30_encoding.md R90 to R98). Decoding is total: every value of byte 0 is
assigned; a byte sequence is rejected only when it ends before the instruction does. -/

namespace Sys2Proof

/-- The 16-bit word whose less significant byte is `lo` (20_memory.md R62): `lo | (hi << 8)`, that is `hi :: lo`. -/
def wordOfBytes (lo hi : Byte) : Word := hi ++ lo

/-- Bits 7:0 of a word (30_encoding.md R93, `addr_lo`). -/
def lowByte (w : Word) : Byte := w.extractLsb' 0 8

/-- Bits 15:8 of a word (30_encoding.md R93, `addr_hi`). -/
def highByte (w : Word) : Byte := w.extractLsb' 8 8

/-- The length of the instruction in bytes, from byte 0 and nothing else (30_encoding.md R98). -/
def instrLength (opcode : Byte) : Nat :=
  if opcode = opJmp then 3 else if opcode = opLda then 2 else 1

/-- The instruction whose byte 0 is `opcode`, with the two bytes after it (30_encoding.md R95). A format that is
shorter than three bytes does not use the bytes beyond its length. -/
def decodeBytes (opcode byte1 byte2 : Byte) : Instr :=
  if opcode = opNop then .nop
  else if opcode = opJmp then .jmp (wordOfBytes byte1 byte2)
  else if opcode = opLda then .lda byte1
  else .dnop opcode

/-- Why a byte sequence holds no whole instruction. -/
inductive DecodeError where
  /-- There is no byte 0. -/
  | noOpcode
  /-- Byte 0 is there, and the sequence ends before the operand bytes of its format do. -/
  | missingOperand (opcode : Byte)
  deriving DecidableEq, Repr

/-- The first instruction of a byte sequence and the bytes after it. -/
def decode : List Byte → Except DecodeError (Instr × List Byte)
  | [] => .error .noOpcode
  | opcode :: rest =>
    if rest.length + 1 < instrLength opcode then .error (.missingOperand opcode)
    else .ok (decodeBytes opcode (rest.getD 0 0) (rest.getD 1 0), rest.drop (instrLength opcode - 1))

/-- The bytes of an instruction, byte 0 first (30_encoding.md R91 to R93, R95). -/
def encode : Instr → List Byte
  | .nop    => [opNop]
  | .jmp t  => [opJmp, lowByte t, highByte t]
  | .lda n  => [opLda, n]
  | .dnop b => [b]

/-- Byte `k` of an instruction numbered as the opcode table numbers it: byte 0 is bits 7:0, byte `k` is bits
`8k+7:8k`, and every bit from `nbits` on is 0. -/
def tableByte (nbits w k : Nat) : Byte := BitVec.ofNat 8 ((w % 2 ^ nbits) >>> (8 * k))

/-- The three bytes that an opcode-table word stands for, in increasing address order. -/
def tableBytes (nbits w : Nat) : List Byte := [tableByte nbits w 0, tableByte nbits w 1, tableByte nbits w 2]

/-- The instruction the decoder reads from an opcode-table word. -/
def decodeTableWord (nbits w : Nat) : Option Instr :=
  match decode (tableBytes nbits w) with
  | .ok (i, _) => some i
  | .error _   => none

end Sys2Proof
end

