-- ==== Sys2Proof/Config.lean ====
section
/-! DEFINITION. The parameters of the block: the fixed ones of 00_scope.md R7 as constants, the open ones of
00_scope.md R8 as fields of `Config`, and the one free value of the model, the answer of the input collaborator. -/

namespace Sys2Proof

/-! ### Fixed parameters (00_scope.md R7) -/

/-- `MEM_SIZE`: bytes of the memory map. -/
@[simp] abbrev memSize : Nat := 65536
/-- `VRAM_SIZE`. -/
@[simp] abbrev vramSize : Nat := 16384
/-- `OAM_SIZE`. -/
@[simp] abbrev oamSize : Nat := 256
/-- `PAL_SIZE`. -/
@[simp] abbrev palSize : Nat := 32
/-- `ROM_BASE`: first address of the program region. -/
@[simp] abbrev romBase : Nat := 0x8000
/-- `MIRROR_BASE`: first address of the mirror of a one-unit program. -/
@[simp] abbrev mirrorBase : Nat := 0xC000
/-- `PRG_UNIT`. -/
@[simp] abbrev prgUnit : Nat := 16384
/-- `CHR_UNIT`. -/
@[simp] abbrev chrUnit : Nat := 8192
/-- `HEADER_LEN`. -/
@[simp] abbrev headerLen : Nat := 16
/-- `MIN_IMAGE`: shorter images fail with `TooSmall`. -/
@[simp] abbrev minImage : Nat := 16
/-- `PRG_CAP`: cap of the program copy, and the size of the program region. -/
@[simp] abbrev prgCap : Nat := 0x8000
/-- `GENERIC_CAP`. -/
@[simp] abbrev genericCap : Nat := 32768
/-- `RESET_FALLBACK`: `PC` when the reset vector reads zero. -/
@[simp] abbrev resetFallback : Word := 0x8000
/-- `SP_RESET`. -/
@[simp] abbrev spReset : Byte := 0xFF
/-- `P_RESET`. -/
@[simp] abbrev pReset : Byte := 0x24
/-- `PC_WRAP_TARGET`: `PC` after it passes the top of the address space. -/
@[simp] abbrev pcWrapTarget : Word := 0x8000
/-- `CYCLES_PER_LINE`. -/
@[simp] abbrev cyclesPerLine : Nat := 341
/-- `LINES_PER_FRAME`. -/
@[simp] abbrev linesPerFrame : Nat := 262
/-- `FB_WIDTH`. -/
@[simp] abbrev fbWidth : Nat := 256
/-- `FB_HEIGHT`. -/
@[simp] abbrev fbHeight : Nat := 240
/-- `FB_MEM_BASE`. -/
@[simp] abbrev fbMemBase : Nat := 0x8000
/-- `FB_MEM_MOD`. -/
@[simp] abbrev fbMemMod : Nat := 0x8000
/-- `ITER_PER_RUNFRAME`. -/
@[simp] abbrev iterPerRunFrame : Nat := 29780

/-! ### Buttons (47_frame_loop_and_host.md R232) -/

/-- The eight buttons, in the order of the source's list. -/
inductive Button where
  | up | down | left | right | a | b | select | start
  deriving DecidableEq, Repr

/-- One answer of the input collaborator: eight booleans, true for pressed. -/
structure Buttons where
  up     : Bool
  down   : Bool
  left   : Bool
  right  : Bool
  a      : Bool
  b      : Bool
  select : Bool
  start  : Bool
  deriving DecidableEq, Repr, Inhabited

/-- `BUTTON_ORDER`: which button is which bit of the input byte. -/
structure ButtonOrder where
  bit0 : Button
  bit1 : Button
  bit2 : Button
  bit3 : Button
  bit4 : Button
  bit5 : Button
  bit6 : Button
  bit7 : Button
  deriving DecidableEq, Repr

/-- The button of bit `k` of the input byte; bit 7 for every `k` above 6. -/
def ButtonOrder.button (o : ButtonOrder) : Nat → Button
  | 0 => o.bit0
  | 1 => o.bit1
  | 2 => o.bit2
  | 3 => o.bit3
  | 4 => o.bit4
  | 5 => o.bit5
  | 6 => o.bit6
  | _ => o.bit7

/-- The order is a permutation of the eight names (93_implementation_defined.md U6). -/
abbrev ButtonOrder.isPermutation (o : ButtonOrder) : Prop :=
  [o.bit0, o.bit1, o.bit2, o.bit3, o.bit4, o.bit5, o.bit6, o.bit7].Nodup

/-- DEDUCED (log 7, the spec's decision D4): the listing order `up, down, left, right, a, b, select, start`,
bit 0 first (10_state.md R37). -/
def ButtonOrder.listing : ButtonOrder := ⟨.up, .down, .left, .right, .a, .b, .select, .start⟩

/-- `MAGIC`: the four signature bytes of a recognized image (40_cartridge_loader.md R124). -/
structure Magic where
  byte0 : Byte
  byte1 : Byte
  byte2 : Byte
  byte3 : Byte
  deriving DecidableEq, Repr

/-- The signature as it stands at offset 0 of a recognized image. -/
def Magic.bytes (m : Magic) : List Byte := [m.byte0, m.byte1, m.byte2, m.byte3]

/-- The open parameters of 00_scope.md R8. `FRAME_WIDTH` is no field: the frame counter is unbounded
(10_state.md R35, log 8). -/
structure Config where
  /-- `RESET_VEC`, the address of the low byte of the reset vector. The spec's constraint
  `RESET_VEC + 1 <= 0xFFFF` is the bound of the type. -/
  resetVec     : Fin 0xFFFF
  /-- `INPUT_REG_ADDR`, any 16-bit address. -/
  inputRegAddr : Word
  /-- `MAGIC`. -/
  magic        : Magic
  /-- `BUTTON_ORDER`. -/
  buttonOrder  : ButtonOrder
  deriving DecidableEq, Repr

/-- The defaults of 00_scope.md R8. PRESUMED (log 6): the spec takes 0xFFFC, 0x4016 and 4E 45 53 1A from general
knowledge. They stand in `State.reset` only; every other definition reads the state's own `config`. -/
def Config.defaults : Config :=
  { resetVec     := 0xFFFC
    inputRegAddr := 0x4016
    magic        := ⟨0x4E, 0x45, 0x53, 0x1A⟩
    buttonOrder  := ButtonOrder.listing }

/-- FREE VALUE (log 4): what the input collaborator answers at poll number `n` when the state's own list of answers
is used up. "It is a free input of the machine: no rule constrains it" (47_frame_loop_and_host.md R232). -/
opaque Config.freeButtons : Nat → Buttons

end Sys2Proof
end

