-- ==== Sys2Proof/Machine/Memory.lean ====
section
/-! DEFINITION. Byte stores: the memory map and the three picture-unit buffers (20_memory.md R60), each a list of
address and byte pairs in one canonical form, and the operations over one store. -/

namespace Sys2Proof.Machine

/-- A byte store, sparse: addresses strictly rising, no entry equal to `unlistedByte`. -/
abbrev Memory := List Host.Cell

/-- What an address reads as that no entry lists: zero, the power-on content of the memory map
(10_state.md R29, "zero-initialized before any load") and of the three buffers (10_state.md R40). -/
@[simp] abbrev unlistedByte : Byte := 0

/-- The canonical form, for addresses from `lo` up to and without `hi`. -/
def Memory.wfFrom (lo hi : Nat) : Memory → Bool
  | [] => true
  | (a, v) :: rest => decide (lo ≤ a) && decide (a < hi) && v != unlistedByte && Memory.wfFrom (a + 1) hi rest

/-- The canonical form of a store of `size` bytes. -/
def Memory.wf (size : Nat) (m : Memory) : Bool := Memory.wfFrom 0 size m

/-- The byte at an address (00_scope.md R13, `mem[a]`). -/
def Memory.read (m : Memory) (addr : Nat) : Byte :=
  match m with
  | [] => unlistedByte
  | (a, v) :: rest => if a = addr then v else Memory.read rest addr

/-- The store with one byte replaced (00_scope.md R13, `MemWrite(addr, 1, v)`; 20_memory.md R64: all eight bits). -/
def Memory.write (m : Memory) (addr : Nat) (v : Byte) : Memory :=
  match m with
  | [] => if v = unlistedByte then [] else [(addr, v)]
  | (a, w) :: rest =>
    if addr < a then (if v = unlistedByte then (a, w) :: rest else (addr, v) :: (a, w) :: rest)
    else if addr = a then (if v = unlistedByte then rest else (addr, v) :: rest)
    else (a, w) :: Memory.write rest addr v

/-- `MemRead(addr, n)` (00_scope.md R13): `n` bytes from `addr` as an unsigned number, little-endian. -/
def Memory.readLE (m : Memory) (addr : Nat) : Nat → Nat
  | 0 => 0
  | n + 1 => (m.read addr).toNat + 256 * Memory.readLE m (addr + 1) n

/-- The entries below an address. -/
def Memory.below (m : Memory) (addr : Nat) : Memory := m.filter fun c => decide (c.1 < addr)

/-- The entries from an address on. -/
def Memory.above (m : Memory) (addr : Nat) : Memory := m.filter fun c => decide (addr ≤ c.1)

/-- The entries of a run of bytes laid from `base` upward. -/
def Memory.ofBytes (base : Nat) : List Byte → Memory
  | [] => []
  | v :: rest =>
    if v = unlistedByte then Memory.ofBytes (base + 1) rest else (base, v) :: Memory.ofBytes (base + 1) rest

/-- `m[base + i] <- 0` for every `i < n` (the loop of 40_cartridge_loader.md R123 at once; log 27). -/
def Memory.zeroRange (m : Memory) (base n : Nat) : Memory := m.below base ++ m.above (base + n)

/-- `m[base + i] <- bytes[i]` for every `i` (the loops of 40_cartridge_loader.md R126, R128, R130 at once; log 27). -/
def Memory.place (m : Memory) (base : Nat) (bytes : List Byte) : Memory :=
  m.below base ++ (Memory.ofBytes base bytes ++ m.above (base + bytes.length))

/-- `m[dst + i] <- m[src + i]` for every `i < n`, for ranges that do not overlap (the loop of
40_cartridge_loader.md R127 at once; log 27). -/
def Memory.copyRange (m : Memory) (src dst n : Nat) : Memory :=
  m.below dst ++ ((((m.above src).below (src + n)).map fun c => (c.1 - src + dst, c.2)) ++ m.above (dst + n))

end Sys2Proof.Machine
end

