-- ==== Sys2Proof/Machine/State.lean ====
section
/-! DEFINITION. The state of the engine (10_state.md R20), the operations its host issues, what it hands back, and
the state right after power-on and reset (10_state.md R40, R41). -/

namespace Sys2Proof.Machine

/-- There is no fault: "The CPU raises no synchronous exception. The set of exception causes is empty"
(60_exceptions.md R260), and no interrupt or trap (R262, R264). The type has no constructor, so no step can answer
one. Safe: it rules out an outcome that the spec rules out. -/
inductive Fault where
  deriving DecidableEq, Repr

/-- Why the model has no answer. -/
inductive Refusal where
  /-- Raised by `exec` for an instruction that has no meaning yet; no arm raises it now. Safe. -/
  | notModelled (mnemonic : String)
  deriving DecidableEq, Repr

/-- An operation of the host (47_frame_loop_and_host.md R240). -/
inductive HostOp where
  /-- `loadROM(img)` (R241). -/
  | loadROM (img : List Byte)
  /-- `reset()` (R242). -/
  | reset
  /-- `runFrame()` (R243). -/
  | runFrame
  /-- `isLoaded()` (R244). -/
  | isLoaded
  deriving DecidableEq, Repr

/-- The result of `loadROM` (40_cartridge_loader.md R120). -/
inductive LoadResult where
  | success
  /-- `LoadError::TooSmall`: a result value, no trap (60_exceptions.md R261; log 29). -/
  | tooSmall
  deriving DecidableEq, Repr

/-- What the engine hands out (47_frame_loop_and_host.md R237). `reset` and `runFrame` return nothing. -/
inductive Output where
  /-- The result of a `loadROM`. -/
  | loadResult (r : LoadResult)
  /-- The result of an `isLoaded`. -/
  | loadedFlag (b : Bool)
  /-- The call `renderFrame(buffer)` to the display (46_framebuffer.md R220). -/
  | renderFrame (buffer : List Pixel)
  deriving DecidableEq, Repr

/-- The whole state. The first fourteen fields are the spec's record (10_state.md R20), in its order. -/
@[ext]
structure State where
  /-- `PC` (R21). -/
  pc        : Word
  /-- `SP` (R22). -/
  sp        : Byte
  /-- `A` (R23). -/
  a         : Byte
  /-- `X` (R24). -/
  x         : Byte
  /-- `Y` (R24). -/
  y         : Byte
  /-- `P` (R25), an opaque byte (R26). -/
  p         : Byte
  /-- The memory map (R29), 65,536 bytes. -/
  mem       : Memory
  /-- Video RAM (R30), 16,384 bytes. -/
  vram      : Memory
  /-- Object-attribute memory (R31), 256 bytes. -/
  oam       : Memory
  /-- Palette (R32), 32 bytes. -/
  pal       : Memory
  /-- `cycle` (R33), 0 to 340. -/
  cycle     : Nat
  /-- `scanline` (R34), 0 to 261. -/
  scanline  : Nat
  /-- `frame` (R35), unbounded. -/
  frame     : Nat
  /-- The loaded flag (R36). -/
  loaded    : Bool
  /-- Iterations still to do of the `runFrame` in progress; 0 when the engine is idle
  (47_frame_loop_and_host.md R234, R236; log 3). -/
  remaining : Nat
  /-- The open parameters of 00_scope.md R8 (log 6); no step writes them. -/
  config    : Config
  /-- Operations the host has issued and the engine has not begun, oldest first (log 2). -/
  pending   : List HostOp
  /-- Answers the input collaborator will give, oldest first (log 4). -/
  inputs    : List Buttons
  /-- Polls made so far; the index of the free answer once `inputs` is empty (log 4). -/
  polls     : Nat
  /-- What the engine has handed out, newest first (log 5). -/
  outputs   : List Output
  deriving DecidableEq, Repr

/-- A new engine with the given parameters (10_state.md R40; 47_frame_loop_and_host.md R249). The values that R40
decides itself: log 20. -/
def State.powerOn (c : Config) : State :=
  { pc := resetFallback, sp := spReset, a := 0, x := 0, y := 0, p := pReset
    mem := [], vram := [], oam := [], pal := []
    cycle := 0, scanline := 0, frame := 0, loaded := false
    remaining := 0, config := c, pending := [], inputs := [], polls := 0, outputs := [] }

/-- The machine right after power-on, whose registers and counters hold their reset values (70_reset_and_hazards.md
R298), with the default parameters (log 6). -/
def State.reset : State := State.powerOn Config.defaults

end Sys2Proof.Machine
end

