-- ==== Sys2Proof/Machine/Ops.lean ====
section
/-! DEFINITION. The named operations over registers, memory and the engine's outputs.

TAKING AN EXCEPTION AND RETURNING FROM ONE: there is no such operation to write. "There is none: no state is saved
anywhere, no mode changes, no mask changes, nothing is pushed, and no vector other than the reset vector exists"
(60_exceptions.md R264); "There is no return-from-trap instruction" (R265); one mode only (R267). -/

namespace Sys2Proof.Machine

/-- The 8-bit registers (00_scope.md R12). -/
inductive Reg where
  | a | x | y | sp | p
  deriving DecidableEq, Repr

/-- The notation `x[i]` of 00_scope.md R12: `x[0]` is `A`, `x[1]` is `X`, `x[2]` is `Y`, `x[3]` is `SP`, `x[4]` is
`P`. -/
def Reg.ofIndex : Fin 5 → Reg
  | 0 => .a
  | 1 => .x
  | 2 => .y
  | 3 => .sp
  | 4 => .p

/-- Read of a register. No register is hard-wired, banked or an alias (10_state.md R27). -/
def State.reg (s : State) : Reg → Byte
  | .a  => s.a
  | .x  => s.x
  | .y  => s.y
  | .sp => s.sp
  | .p  => s.p

/-- Write of a register. -/
def State.setReg (s : State) (r : Reg) (v : Byte) : State :=
  match r with
  | .a  => { s with a := v }
  | .x  => { s with x := v }
  | .y  => { s with y := v }
  | .sp => { s with sp := v }
  | .p  => { s with p := v }

/-- Write of the program counter. -/
def State.setPc (s : State) (v : Word) : State := { s with pc := v }

/-- Read of one byte of the memory map (00_scope.md R13, `MemRead(addr, 1)`). -/
def State.loadByte (s : State) (addr : Nat) : Byte := s.mem.read addr

/-- Write of one byte of the memory map (00_scope.md R13, `MemWrite(addr, 1, v)`). Every byte is writable
(20_memory.md R67). -/
def State.storeByte (s : State) (addr : Nat) (v : Byte) : State := { s with mem := s.mem.write addr v }

/-- The program-counter wrap of 41_cpu_step.md R153: `npc` is not truncated, and past the top of the address space
`PC` goes to 0x8000, not to `npc mod 65536` (log 10). -/
def wrapPc (npc : Nat) : Word := if npc > 0xFFFF then pcWrapTarget else BitVec.ofNat 16 npc

/-- End of a CPU step: the one write of `PC` (10_state.md R21; 41_cpu_step.md R153). -/
def State.finishStep (s : State) (npc : Nat) : State := s.setPc (wrapPc npc)

/-- The engine hands something to its host or to the display. -/
def State.emit (s : State) (o : Output) : State := { s with outputs := o :: s.outputs }

/-- The picture-unit counters take new values. -/
def State.setCounters (s : State) (cycle scanline frame : Nat) : State :=
  { s with cycle := cycle, scanline := scanline, frame := frame }

end Sys2Proof.Machine
end

