-- ==== Sys2Proof/Machine/Operands.lean ====
section
/-! DEFINITION. Instruction fetch and the operand forms: immediate (`LDA`) and absolute (`JMP`), and no other
addressing mode (44_load_accumulator.md R193). -/

namespace Sys2Proof.Machine

/-- The address of operand byte `k` (20_memory.md R68): operand addresses wrap modulo 65,536 (log 9). -/
def operandAddr (pc : Word) (k : Nat) : Nat := (pc.toNat + k) % memSize

/-- `opcode <- mem[PC]` (41_cpu_step.md R151). -/
def State.fetchOpcode (s : State) : Byte := s.loadByte s.pc.toNat

/-- Operand byte `k`, read with `PC` still at the opcode (41_cpu_step.md R151). -/
def State.fetchOperand (s : State) (k : Nat) : Byte := s.loadByte (operandAddr s.pc k)

/-- The instruction at `PC`, from memory as it is now (20_memory.md R74). The operand bytes of a shorter format are
not used, and reading a byte has no effect (20_memory.md R65; log 28). -/
def State.fetchInstr (s : State) : Instr := decodeBytes s.fetchOpcode (s.fetchOperand 1) (s.fetchOperand 2)

end Sys2Proof.Machine
end

