-- ==== Sys2Proof/Machine/Jump.lean ====
section
/-! DEFINITION. Control transfer (43_jump.md). -/

namespace Sys2Proof.Machine

/-- `JMP` (R180): `npc` is the operand word; every target is legal, no link is kept and nothing is pushed. -/
def execJmp (target : Word) (s : State) : Host.Outcome State Fault Refusal := .next (s.finishStep target.toNat)

end Sys2Proof.Machine
end

