-- ==== Sys2Proof/Machine/Flags.lean ====
section
/-! DEFINITION. The status register. The machine computes no flag: no row of the opcode table reads or writes `P`
(10_state.md R25; 44_load_accumulator.md R191; log 11), and no bit has a name or a meaning (10_state.md R26). What
there is: its reset pattern, bits 5 and 2 set, and a reader of one bit. -/

namespace Sys2Proof.Machine

/-- Bit `k` of `P`. -/
def State.statusBit (s : State) (k : Fin 8) : Bool := s.p.getLsbD k

end Sys2Proof.Machine
end

