-- ==== Sys2Proof/Machine/LoadAccumulator.lean ====
section
/-! DEFINITION. The load (44_load_accumulator.md). -/

namespace Sys2Proof.Machine

/-- `LDA` (R190): `A` takes the immediate, unextended; `npc <- PC + 2`; `P` does not change (R191, log 11). -/
def execLda (imm : Byte) (s : State) : Host.Outcome State Fault Refusal :=
  .next ((s.setReg .a imm).finishStep (s.pc.toNat + 2))

end Sys2Proof.Machine
end

