-- ==== Sys2Proof/Machine/NoOperation.lean ====
section
/-! DEFINITION. The no-operation instructions (42_no_operation.md). -/

namespace Sys2Proof.Machine

/-- `NOP` (R170): `npc <- PC + 1`, no other effect. -/
def execNop (s : State) : Host.Outcome State Fault Refusal := .next (s.finishStep (s.pc.toNat + 1))

/-- `DNOP` (R171): `npc <- PC + 1`, no other effect, whatever the opcode byte; the bytes after it are not
consumed. -/
def execDnop (_ : Byte) (s : State) : Host.Outcome State Fault Refusal := .next (s.finishStep (s.pc.toNat + 1))

end Sys2Proof.Machine
end

