-- ==== Sys2Proof/Machine/Dispatch.lean ====
section
/-! DEFINITION. The dispatch of 41_cpu_step.md R152: one arm per instruction. -/

namespace Sys2Proof.Machine

/-- What one instruction does: the register write and the program-counter write of its CPU step
(41_cpu_step.md R152, R153). -/
def exec (i : Instr) (s : State) : Host.Outcome State Fault Refusal :=
  match i with
  | .nop => Sys2Proof.Machine.execNop s
  | .jmp target => Sys2Proof.Machine.execJmp target s
  | .lda imm => Sys2Proof.Machine.execLda imm s
  | .dnop opcode => Sys2Proof.Machine.execDnop opcode s

end Sys2Proof.Machine
end

