-- ==== Sys2Proof/Machine/Input.lean ====
section
/-! DEFINITION. The input sampler (47_frame_loop_and_host.md R232, R233). -/

namespace Sys2Proof.Machine

/-- Whether a button is pressed in an answer. -/
def buttonPressed (s : Buttons) : Button → Bool
  | .up     => s.up
  | .down   => s.down
  | .left   => s.left
  | .right  => s.right
  | .a      => s.a
  | .b      => s.b
  | .select => s.select
  | .start  => s.start

/-- The mask of one bit of the input byte (R233: `pressed ? mask : 0`). -/
def buttonMask (pressed : Bool) (mask : Byte) : Byte := if pressed then mask else 0

/-- The input byte (R233; 10_state.md R37): bit `k` is set when the order's button of bit `k` is pressed. -/
def packButtons (o : ButtonOrder) (s : Buttons) : Byte :=
  buttonMask (buttonPressed s o.bit0) 0x01 ||| buttonMask (buttonPressed s o.bit1) 0x02
    ||| buttonMask (buttonPressed s o.bit2) 0x04 ||| buttonMask (buttonPressed s o.bit3) 0x08
    ||| buttonMask (buttonPressed s o.bit4) 0x10 ||| buttonMask (buttonPressed s o.bit5) 0x20
    ||| buttonMask (buttonPressed s o.bit6) 0x40 ||| buttonMask (buttonPressed s o.bit7) 0x80

/-- The answer to the next poll (R232): the oldest answer that stands ready, and a free value when none does
(log 4). The engine never waits. -/
def State.nextAnswer (s : State) : Buttons :=
  match s.inputs with
  | [] => Config.freeButtons s.polls
  | b :: _ => b

/-- The poll is made: its answer is used up and the count of polls advances. -/
def State.countPoll (s : State) : State := { s with inputs := s.inputs.tail, polls := s.polls + 1 }

/-- `INPUT_REG_ADDR` (00_scope.md R8). -/
def State.inputAddr (s : State) : Nat := s.config.inputRegAddr.toNat

/-- The byte the next input step stores (R233). -/
def State.inputByte (s : State) : Byte := packButtons s.config.buttonOrder s.nextAnswer

/-- `inputStep()` (R233): one poll, then one byte write, whether or not any button changed. -/
def State.inputStep (s : State) : State := s.countPoll.storeByte s.inputAddr s.inputByte

end Sys2Proof.Machine
end

