-- ==== Sys2Proof/Machine/Framebuffer.lean ====
section
/-! DEFINITION. Framebuffer production (46_framebuffer.md): a pure function of `mem[0x8000 .. 0xFFFF]` and
`frame mod 256` (R215). -/

namespace Sys2Proof.Machine

/-- The address a pixel samples (R217): `0x8000 + (x + y * 256) mod 0x8000`. -/
def sampleAddr (x y : Nat) : Nat := fbMemBase + (x + y * fbWidth) % fbMemMod

/-- `red <- (memValue + frame) mod 256` (R218), with the frame counter after its increment (log 13). -/
def redChannel (memValue : Byte) (frame : Nat) : Byte := BitVec.ofNat 8 ((memValue.toNat + frame) % 256)

/-- `green <- (memValue * 2 + x) mod 256` (R218). -/
def greenChannel (memValue : Byte) (x : Nat) : Byte := BitVec.ofNat 8 ((memValue.toNat * 2 + x) % 256)

/-- `blue <- (memValue * 3 + y) mod 256` (R218). -/
def blueChannel (memValue : Byte) (y : Nat) : Byte := BitVec.ofNat 8 ((memValue.toNat * 3 + y) % 256)

/-- `(alpha << 24) | (blue << 16) | (green << 8) | red`, alpha 255 (R218, R219). -/
def packPixel (blue green red : Byte) : Pixel := (0xFF : Byte) ++ blue ++ green ++ red

/-- The pixel at column `x`, row `y`, for the memory map `m` and the frame counter `frame` (R217 to R219). -/
def pixelAt (m : Memory) (frame x y : Nat) : Pixel :=
  packPixel (blueChannel (m.read (sampleAddr x y)) y) (greenChannel (m.read (sampleAddr x y)) x)
    (redChannel (m.read (sampleAddr x y)) frame)

/-- The 61,440 pixels (R221); pixel `(x, y)` is element `x + y * 256` (R216, log 21). -/
def framebuffer (m : Memory) (frame : Nat) : List Pixel :=
  (List.range (fbWidth * fbHeight)).map fun i => pixelAt m frame (i % fbWidth) (i / fbWidth)

/-- `produceFramebuffer()` (R221): the buffer is computed from the state as it is and handed to the display in one
call (R220, R222); nothing of the engine changes. -/
def State.produceFramebuffer (s : State) : State := s.emit (.renderFrame (framebuffer s.mem s.frame))

end Sys2Proof.Machine
end

