-- ==== Sys2Proof/Machine/PictureUnit.lean ====
section
/-! DEFINITION. The picture-unit step (45_ppu_step.md). -/

namespace Sys2Proof.Machine

/-- `ppuStep()` (R204). The frame counter is incremented before the framebuffer is produced (R203, log 13). -/
def State.ppuStep (s : State) : State :=
  if s.cycle + 1 = cyclesPerLine then
    if s.scanline + 1 = linesPerFrame then (s.setCounters 0 0 (s.frame + 1)).produceFramebuffer
    else s.setCounters 0 (s.scanline + 1) s.frame
  else s.setCounters (s.cycle + 1) s.scanline s.frame

end Sys2Proof.Machine
end

