-- ==== Sys2Proof/Machine/CycleStepper.lean ====
section
/-! DEFINITION. The cycle stepper (47_frame_loop_and_host.md R230, R231). -/

namespace Sys2Proof.Machine

/-- `cpuStep()` (41_cpu_step.md R154): the instruction at `PC`, executed. -/
def cpuStep (s : State) : Host.Outcome State Fault Refusal := exec s.fetchInstr s

/-- One iteration of the running `runFrame` is done (R234). -/
def State.countIteration (s : State) : State := { s with remaining := s.remaining - 1 }

/-- What follows the CPU step inside an iteration: the picture unit, then the input sampler (R231, log 12). -/
def State.afterCpu (s : State) : State := s.ppuStep.inputStep.countIteration

/-- `iteration()` (R231): CPU step, picture-unit step, input step. -/
def iteration (s : State) : Host.Outcome State Fault Refusal :=
  match cpuStep s with
  | .next t    => .next t.afterCpu
  | .fault r   => .fault r
  | .refused r => .refused r

end Sys2Proof.Machine
end

