-- ==== Sys2Proof/Machine/ResetOperation.lean ====
section
/-! DEFINITION. The reset operation (70_reset_and_hazards.md R290 to R296). -/

namespace Sys2Proof.Machine

/-- `v <- MemRead(RESET_VEC, 2)` (R291). -/
def State.resetVector (s : State) : Nat := s.mem.readLE s.config.resetVec.val 2

/-- `PC` at reset: the vector, and 0x8000 when both its bytes are zero (R291, R292; log 19). -/
def State.resetPc (s : State) : Word :=
  if s.resetVector = 0 then resetFallback else BitVec.ofNat 16 s.resetVector

/-- `reset()` (R296). Memory, the buffers and `loaded` stay as they are (R295). -/
def State.resetEngine (s : State) : State :=
  ((((((s.setPc s.resetPc).setReg .sp spReset).setReg .a 0).setReg .x 0).setReg .y 0).setReg .p pReset).setCounters
    0 0 0

end Sys2Proof.Machine
end

