-- ==== Sys2Proof/Machine/Loader.lean ====
section
/-! DEFINITION. The cartridge loader (40_cartridge_loader.md). -/

namespace Sys2Proof.Machine

/-- The image is recognized when its first four bytes are `MAGIC` (R124). -/
def recognized (c : Config) (img : List Byte) : Bool := img.take 4 == c.magic.bytes

/-- `prg_units`, header byte 4 (R125). -/
def prgUnits (img : List Byte) : Nat := (img.getD 4 0).toNat

/-- `chr_units`, header byte 5 (R125). Header bytes 6 to 15 are read by no rule (log 18). -/
def chrUnits (img : List Byte) : Nat := (img.getD 5 0).toNat

/-- `prg_size` (R125). -/
def prgSize (img : List Byte) : Nat := prgUnits img * prgUnit

/-- `chr_size` (R125). -/
def chrSize (img : List Byte) : Nat := chrUnits img * chrUnit

/-- `n_prg = min(prg_size, 0x8000, len(img) - 16)` (R126, log 15). -/
def prgCount (img : List Byte) : Nat := min (min (prgSize img) prgCap) (img.length - headerLen)

/-- `chr_off = 16 + prg_size`, the declared size (R128, log 15). -/
def chrOffset (img : List Byte) : Nat := headerLen + prgSize img

/-- `n_chr = min(chr_size, 16384, max(0, len(img) - chr_off))` (R128, log 15). -/
def chrCount (img : List Byte) : Nat := min (min (chrSize img) vramSize) (img.length - chrOffset img)

/-- `n_gen = min(len(img), 32768)` (R130). -/
def genericCount (img : List Byte) : Nat := min img.length genericCap

/-- `n` bytes of the image from an offset. -/
def imageSlice (img : List Byte) (offset n : Nat) : List Byte := (img.drop offset).take n

/-- The zeroing before placement (R123, log 14): the program region and all of `vram`. -/
def State.clearRegions (s : State) : State :=
  { s with mem := s.mem.zeroRange romBase prgCap, vram := s.vram.zeroRange 0 vramSize }

/-- The program copy of a recognized image (R126). -/
def State.copyProgram (s : State) (img : List Byte) : State :=
  { s with mem := s.mem.place romBase (imageSlice img headerLen (prgCount img)) }

/-- The mirror (R127, log 16): a one-time copy of all 16,384 bytes, only when `prg_units = 1`. -/
def State.copyMirror (s : State) (img : List Byte) : State :=
  if prgUnits img = 1 then { s with mem := s.mem.copyRange romBase mirrorBase prgUnit } else s

/-- The graphics copy (R128). -/
def State.copyGraphics (s : State) (img : List Byte) : State :=
  { s with vram := s.vram.place 0 (imageSlice img (chrOffset img) (chrCount img)) }

/-- The copy of a generic image (R130): no header, no mirror, no graphics. -/
def State.copyGeneric (s : State) (img : List Byte) : State :=
  { s with mem := s.mem.place romBase (imageSlice img 0 (genericCount img)) }

/-- Zeroing and placement on either path (R132). -/
def State.placeImage (s : State) (img : List Byte) : State :=
  if recognized s.config img then
    ((s.clearRegions.copyProgram img).copyMirror img).copyGraphics img
  else s.clearRegions.copyGeneric img

/-- `loaded <- true` (R131). -/
def State.markLoaded (s : State) : State := { s with loaded := true }

/-- `loadROM(img)` (R132): an image of fewer than 16 bytes changes nothing and gives `TooSmall` (R121, R122; log 17);
any other is placed, `loaded` becomes true, the engine resets, and the result is success (R131). -/
def State.loadROM (s : State) (img : List Byte) : State :=
  if img.length < minImage then s.emit (.loadResult .tooSmall)
  else (s.placeImage img).markLoaded.resetEngine.emit (.loadResult .success)

end Sys2Proof.Machine
end

