-- ==== Sys2Proof/Machine/HostInterface.lean ====
section
/-! DEFINITION. The host's operations (47_frame_loop_and_host.md R234, R235, R240 to R244). -/

namespace Sys2Proof.Machine

/-- `runFrame()`: with `loaded` set, 29,780 iterations are to be done (R234); otherwise nothing happens (R235). -/
def State.beginRunFrame (s : State) : State :=
  if s.loaded then { s with remaining := iterPerRunFrame } else s

/-- The engine takes up one operation of its host. `loadROM`, `reset` and `isLoaded` are done at once; `runFrame`
goes on for its iterations (R236, log 1). -/
def State.hostOp (s : State) (op : HostOp) : State :=
  match op with
  | .loadROM img => s.loadROM img
  | .reset       => s.resetEngine
  | .runFrame    => s.beginRunFrame
  | .isLoaded    => s.emit (.loadedFlag s.loaded)

/-- The oldest operation leaves the queue. -/
def State.takeOp (s : State) : State := { s with pending := s.pending.tail }

/-- A step of the idle engine: it takes up the oldest operation its host has issued; when there is none, all state
survives unchanged (60_exceptions.md R272, log 1). -/
def State.hostStep (s : State) : State :=
  match s.pending with
  | []      => s
  | op :: _ => s.takeOp.hostOp op

/-- A `runFrame` is in progress with at least one iteration to do: the operation in progress is made so where there
is none, as a load and a `runFrame` make it (R234; 70_reset_and_hazards.md R299; log 26). -/
def State.running (s : State) : State :=
  { s with loaded := true, remaining := if s.remaining = 0 then iterPerRunFrame else s.remaining }

/-- Three bytes are stored where the next CPU step fetches its opcode and its operand bytes
(41_cpu_step.md R151; log 26). -/
def State.storeInstr (s : State) (byte0 byte1 byte2 : Byte) : State :=
  ((s.storeByte s.pc.toNat byte0).storeByte ((s.pc.toNat + 1) % memSize) byte1).storeByte
    ((s.pc.toNat + 2) % memSize) byte2

end Sys2Proof.Machine
end

