-- ==== Sys2Proof/Machine/Step.lean ====
section
/-! DEFINITION. One step of the whole machine. -/

namespace Sys2Proof.Machine

/-- A `runFrame` in progress does one iteration (47_frame_loop_and_host.md R234) and no operation of the host begins
meanwhile (R236); an idle engine takes up the host's next operation (log 1). -/
def step (s : State) : Host.Outcome State Fault Refusal :=
  if s.remaining = 0 then .next s.hostStep else iteration s

/-- The state with an opcode-table word where the next step fetches, and a `runFrame` in progress (log 26). -/
def State.withFetchWord (s : State) (nbits w : Nat) : State :=
  (s.storeInstr (tableByte nbits w 0) (tableByte nbits w 1) (tableByte nbits w 2)).running

end Sys2Proof.Machine
end

