-- ==== Sys2Proof/Safety.lean ====
section
/-! DEFINITION. The terms in which claims about runs are stated. -/

namespace Sys2Proof.Machine

/-- The scan position `scanline * 341 + cycle` (45_ppu_step.md R205). -/
def State.scanPos (s : State) : Nat := s.scanline * cyclesPerLine + s.cycle

/-- The counters are in the ranges they hold between steps (10_state.md R33, R34). -/
abbrev State.countersInRange (s : State) : Prop := s.cycle < cyclesPerLine ∧ s.scanline < linesPerFrame

/-- How many framebuffers stand in a list of outputs. -/
def framesIn : List Output → Nat
  | [] => 0
  | .renderFrame _ :: rest => framesIn rest + 1
  | .loadResult _ :: rest => framesIn rest
  | .loadedFlag _ :: rest => framesIn rest

/-- How many framebuffers the engine has handed to its display. -/
def State.framesEmitted (s : State) : Nat := framesIn s.outputs

/-- The four byte stores are in canonical form and inside their sizes (20_memory.md R60). -/
abbrev State.storesCanonical (s : State) : Prop :=
  s.mem.wf memSize = true ∧ s.vram.wf vramSize = true ∧ s.oam.wf oamSize = true ∧ s.pal.wf palSize = true

/-- The registers no instruction writes hold their reset values (10_state.md R42). -/
abbrev State.inertRegisters (s : State) : Prop := s.sp = spReset ∧ s.x = 0 ∧ s.y = 0 ∧ s.p = pReset

/-- A `runFrame` in progress has at most its 29,780 iterations to do, and only a loaded engine has one
(47_frame_loop_and_host.md R234, R235). -/
abbrev State.runInBounds (s : State) : Prop :=
  s.remaining ≤ iterPerRunFrame ∧ (s.remaining ≠ 0 → s.loaded = true)

/-- What holds in every reachable state (10_state.md R42): counters in range, stores canonical, `oam` and `pal` all
zero, the inert registers at their reset values, the run in bounds. -/
abbrev State.Inv (s : State) : Prop :=
  s.countersInRange ∧ s.storesCanonical ∧ (s.oam = [] ∧ s.pal = []) ∧ s.inertRegisters ∧ s.runInBounds

/-- The engine is idle and `op` is the host's next operation, with `ops` behind it. -/
abbrev State.issued (s : State) (op : HostOp) (ops : List HostOp) : Prop := s.remaining = 0 ∧ s.pending = op :: ops

/-- `n` steps from `s` end in `t`: no fault and no refusal on the way. -/
def State.runsTo (s : State) (n : Nat) (t : State) : Prop := core.run n s = .next t

end Sys2Proof.Machine
end

