-- ==== Sys2Proof/Certificates/Slice0/Obligations.lean ====
section
/-! DEFINITION. The statements about the machine, for the provers. Each docstring names the rule of spec/ it is about;
"D<n>" is a row of 92_eei_decisions.md (the spec's own choice, not the source's) and "log n" is
notes/assumptions/n.md. -/

open Sys2Proof Sys2Proof.Machine

/-! ### Encoding -/

/-- 30_encoding.md R103: the source's two worked encodings. -/
def Obligations.WorkedEncodingsDecode : Prop :=
  decode [0xA9, 0x42] = .ok (.lda 0x42, []) ∧ decode [0x4C, 0x00, 0x90] = .ok (.jmp 0x9000, [])

/-- 30_encoding.md R95: every one of the 256 values of byte 0 is assigned, with its mnemonic, format and length; the
operand word is little-endian (R93, R94). -/
def Obligations.OpcodeMapAssignsEveryByte : Prop :=
  ∀ (b0 b1 b2 : Byte) (rest : List Byte),
    decode (b0 :: b1 :: b2 :: rest) =
      if b0 = 0xEA then .ok (.nop, b1 :: b2 :: rest)
      else if b0 = 0x4C then .ok (.jmp (BitVec.ofNat 16 (b1.toNat + 256 * b2.toNat)), rest)
      else if b0 = 0xA9 then .ok (.lda b1, b2 :: rest)
      else .ok (.dnop b0, b1 :: b2 :: rest)

/-- 30_encoding.md R98: byte 0 alone decides the length, and a byte sequence is decoded exactly when it holds that
many bytes. -/
def Obligations.DecodingNeedsOnlyTheAnnouncedLength : Prop :=
  ∀ bs : List Byte,
    (∃ i rest, decode bs = .ok (i, rest)) ↔
      ∃ b0 tl, bs = b0 :: tl ∧ (if b0 = 0x4C then 3 else if b0 = 0xA9 then 2 else 1) ≤ bs.length

/-- 30_encoding.md R91 to R95: decoding the encoding of a well-formed instruction gives it back, every operand at
every value, and leaves the bytes after it. -/
def Obligations.DecodeOfEncodeIsTheInstruction : Prop :=
  ∀ (i : Instr) (rest : List Byte), i.wellFormed = true → decode (encode i ++ rest) = .ok (i, rest)

/-- 30_encoding.md R95, R96: what is decoded is well formed, and encoding it gives the bytes it was read from. -/
def Obligations.EncodeOfDecodeIsTheBytesRead : Prop :=
  ∀ (bs rest : List Byte) (i : Instr), decode bs = .ok (i, rest) → i.wellFormed = true ∧ encode i ++ rest = bs

/-- 42_no_operation.md R172: what a no-operation is does not depend on the bytes after its opcode. -/
def Obligations.NoOperationIgnoresFollowingBytes : Prop :=
  ∀ b b1 b2 c1 c2 : Byte, b ≠ 0x4C → b ≠ 0xA9 → decodeBytes b b1 b2 = decodeBytes b c1 c2

/-! ### Instructions -/

/-- 42_no_operation.md R170: encoding, completion, the new `PC` with its wrap (the test of the wrap is D7, log 10), and
that nothing else changes. -/
def Obligations.NopOnlyAdvancesProgramCounter : Prop :=
  encode .nop = [0xEA] ∧
  (∀ s : State, s.mem.read s.pc.toNat = 0xEA → s.fetchInstr = .nop) ∧
  ∀ s : State, exec .nop s = .next { s with pc := if s.pc.toNat + 1 > 0xFFFF then 0x8000 else s.pc + 1 }

/-- 42_no_operation.md R171: any opcode byte other than 0xEA, 0x4C, 0xA9 is one byte long and only advances `PC` by one,
with the wrap (D7, log 10). -/
def Obligations.DefaultNopOnlyAdvancesProgramCounter : Prop :=
  (∀ b : Byte, encode (.dnop b) = [b]) ∧
  (∀ (s : State) (b : Byte), s.mem.read s.pc.toNat = b → b ≠ 0xEA → b ≠ 0x4C → b ≠ 0xA9 → s.fetchInstr = .dnop b) ∧
  ∀ (b : Byte) (s : State),
    exec (.dnop b) s = .next { s with pc := if s.pc.toNat + 1 > 0xFFFF then 0x8000 else s.pc + 1 }

/-- 43_jump.md R180: `PC` takes the operand word, whatever it is, and nothing else changes. The operand fetch of R180
past the top of memory is D6 (log 9) and stands in `CpuStepFollowsTheOpcode`. -/
def Obligations.JmpSetsProgramCounterToItsTarget : Prop :=
  ∀ (target : Word) (s : State), exec (.jmp target) s = .next { s with pc := target }

/-- 44_load_accumulator.md R190, R191: `A` takes the immediate, `PC` advances by two with the wrap (D7, log 10), and
nothing else changes, `P` included (D8, log 11). -/
def Obligations.LdaLoadsAccumulatorAndAdvancesByTwo : Prop :=
  ∀ (imm : Byte) (s : State),
    exec (.lda imm) s = .next { s with a := imm, pc := if s.pc.toNat + 2 > 0xFFFF then 0x8000 else s.pc + 2 }

/-- 41_cpu_step.md R154: the whole CPU step, from the bytes of memory. Rests on D6 (operand addresses wrap, log 9), D7
(the wrap of `PC`, log 10) and D8 (no flag changes, log 11). -/
def Obligations.CpuStepFollowsTheOpcode : Prop :=
  ∀ s : State,
    let opcode := s.mem.read s.pc.toNat
    let operand := fun k : Nat => s.mem.read ((s.pc.toNat + k) % 65536)
    let advance := fun n : Nat => if s.pc.toNat + n > 0xFFFF then (0x8000 : Word) else BitVec.ofNat 16 (s.pc.toNat + n)
    cpuStep s = .next
      (if opcode = 0xEA then { s with pc := advance 1 }
       else if opcode = 0x4C then { s with pc := BitVec.ofNat 16 ((operand 1).toNat + 256 * (operand 2).toNat) }
       else if opcode = 0xA9 then { s with a := operand 1, pc := advance 2 }
       else { s with pc := advance 1 })

/-- 41_cpu_step.md R155, the frame of `NOP`, `DNOP`, `JMP` and `LDA`: only `PC` changes, and `A` when the instruction
is `LDA`. No instruction stores, so every byte of every store reads as before. That an instruction leaves `P`, `SP`,
`X` and `Y` (`LDA` sets no flag) is D8 (log 11). -/
def Obligations.InstructionsChangeOnlyPcAndLdaAlsoA : Prop :=
  ∀ (i : Instr) (s t : State), exec i s = .next t →
    ((∀ n, i ≠ .lda n) → t.a = s.a) ∧ t.sp = s.sp ∧ t.x = s.x ∧ t.y = s.y ∧ t.p = s.p ∧
    (∀ addr, t.mem.read addr = s.mem.read addr) ∧ (∀ addr, t.vram.read addr = s.vram.read addr) ∧
    (∀ addr, t.oam.read addr = s.oam.read addr) ∧ (∀ addr, t.pal.read addr = s.pal.read addr) ∧
    t.cycle = s.cycle ∧ t.scanline = s.scanline ∧ t.frame = s.frame ∧ t.loaded = s.loaded ∧
    t.remaining = s.remaining ∧ t.config = s.config ∧ t.pending = s.pending ∧ t.inputs = s.inputs ∧
    t.polls = s.polls ∧ t.outputs = s.outputs

/-- 41_cpu_step.md R158: in an iteration whose opcode is not 0x4C, `PC` goes up by one or two, or from the last two
addresses to 0x8000 (D7, log 10); so from the program region it does not enter low memory. -/
def Obligations.WithoutJmpProgramCounterGoesUpOrWraps : Prop :=
  ∀ s t : State, s.remaining ≠ 0 → step s = .next t → s.mem.read s.pc.toNat ≠ 0x4C →
    (s.pc.toNat < t.pc.toNat ∧ t.pc.toNat ≤ s.pc.toNat + 2 ∨ 0xFFFE ≤ s.pc.toNat ∧ t.pc = 0x8000) ∧
    (0x8000 ≤ s.pc.toNat → 0x8000 ≤ t.pc.toNat)

/-! ### The step and the iteration -/

/-- 47_frame_loop_and_host.md R231, 41_cpu_step.md R151: while a `runFrame` is in progress, a step runs the
instruction that the bytes at `PC` decode to, then the picture-unit step, then the input step, and counts the
iteration. That the operand bytes stand at `PC + 1` and `PC + 2` modulo 65536 is D6 (20_memory.md R68, log 9); the order
is D9 (log 12). -/
def Obligations.StepRunsTheDecodedInstruction : Prop :=
  ∀ (s : State) (i : Instr) (rest : List Byte), s.remaining ≠ 0 →
    decode [s.mem.read s.pc.toNat, s.mem.read ((s.pc.toNat + 1) % 65536), s.mem.read ((s.pc.toNat + 2) % 65536)]
      = .ok (i, rest) →
    step s = match exec i s with
      | .next t    => .next t.ppuStep.inputStep.countIteration
      | .fault r   => .fault r
      | .refused r => .refused r

/-- 41_cpu_step.md R150 ("A step always completes"), R157; 60_exceptions.md R260: no step faults, stalls or is
refused, in any state. -/
def Obligations.EveryStepCompletes : Prop := ∀ s : State, ∃ t, step s = .next t

/-- 20_memory.md R71, 46_framebuffer.md R222, 47_frame_loop_and_host.md R236: in an iteration the one memory write is
the input byte; a framebuffer is handed out exactly when the scan wraps, computed from memory before that write and with
the incremented frame counter; one poll is used up; no operation of the host begins. Rests on D9 and D24 (log 12) and
D10 (log 13). -/
def Obligations.IterationOrderOfEffects : Prop :=
  ∀ s : State, s.remaining ≠ 0 → ∃ t, step s = .next t ∧
    t.mem = s.mem.write s.config.inputRegAddr.toNat s.inputByte ∧
    t.outputs =
      (if s.cycle = 340 ∧ s.scanline = 261 then .renderFrame (framebuffer s.mem (s.frame + 1)) :: s.outputs
       else s.outputs) ∧
    t.inputs = s.inputs.tail ∧ t.polls = s.polls + 1 ∧ t.remaining = s.remaining - 1 ∧ t.pending = s.pending ∧
    t.loaded = s.loaded

/-- 20_memory.md R74: the next fetch sees memory as the iteration leaves it, the new input byte when `PC` has reached
`INPUT_REG_ADDR`, and the old byte anywhere else. That the input write comes last in the iteration, so that the fetch
after it is the next one, is D9 (R71, log 12); that a read of `INPUT_REG_ADDR` gives the stored byte is D25 (R65,
log 23). -/
def Obligations.NextFetchSeesTheInputByte : Prop :=
  ∀ s t : State, s.remaining ≠ 0 → s.mem.wf 65536 = true → step s = .next t →
    t.fetchOpcode =
      if t.pc = s.config.inputRegAddr then packButtons s.config.buttonOrder s.nextAnswer
      else s.mem.read t.pc.toNat

/-- 60_exceptions.md R272: an idle engine whose host has issued nothing keeps all state (the step that finds no
operation is the model's, log 1). -/
def Obligations.IdleEngineKeepsAllState : Prop :=
  ∀ s : State, s.remaining = 0 → s.pending = [] → step s = .next s

/-! ### Picture unit -/

/-- 45_ppu_step.md R201, R202: the cycle and scanline counters, and when the frame update is performed. -/
def Obligations.CycleAndScanlineCount : Prop :=
  ∀ s : State,
    (s.cycle + 1 ≠ 341 → s.ppuStep = { s with cycle := s.cycle + 1 }) ∧
    (s.cycle + 1 = 341 → s.scanline + 1 ≠ 262 → s.ppuStep = { s with cycle := 0, scanline := s.scanline + 1 }) ∧
    (s.cycle + 1 = 341 → s.scanline + 1 = 262 →
      s.ppuStep.cycle = 0 ∧ s.ppuStep.scanline = 0 ∧ s.ppuStep.frame = s.frame + 1 ∧
        s.ppuStep.framesEmitted = s.framesEmitted + 1)

/-- 45_ppu_step.md R203: at the scanline wrap the frame counter goes up and one framebuffer, computed with the new
count, is handed out; nothing else changes (D10, log 13). -/
def Obligations.ScanWrapEmitsOneFramebuffer : Prop :=
  ∀ s : State, s.cycle = 340 → s.scanline = 261 →
    s.ppuStep = { s with cycle := 0, scanline := 0, frame := s.frame + 1,
                         outputs := .renderFrame (framebuffer s.mem (s.frame + 1)) :: s.outputs }

/-- 45_ppu_step.md R205, one step: the scan position advances by one modulo 89,342, and a frame is counted and emitted
exactly when the new position is 0. -/
def Obligations.ScanPositionAdvancesByOne : Prop :=
  ∀ s : State, s.countersInRange →
    s.ppuStep.countersInRange ∧ s.ppuStep.scanPos = (s.scanPos + 1) % 89342 ∧
    s.ppuStep.frame = s.frame + (if s.ppuStep.scanPos = 0 then 1 else 0) ∧
    s.ppuStep.framesEmitted = s.framesEmitted + (if s.ppuStep.scanPos = 0 then 1 else 0)

/-- 45_ppu_step.md R205 over a run: after `n` iterations of a `runFrame` in progress, from any state with counters in
range. -/
def Obligations.ScanPositionLawOverIterations : Prop :=
  ∀ (n : Nat) (s : State), s.countersInRange → n ≤ s.remaining → ∃ t, s.runsTo n t ∧
    t.countersInRange ∧ t.scanPos = (s.scanPos + n) % 89342 ∧ t.frame = s.frame + (s.scanPos + n) / 89342 ∧
    t.framesEmitted = s.framesEmitted + (s.scanPos + n) / 89342 ∧ t.polls = s.polls + n ∧
    t.remaining = s.remaining - n ∧ t.pending = s.pending

/-- 47_frame_loop_and_host.md R234, 45_ppu_step.md R206 (conflicts C1, C2): a `runFrame` on a loaded engine does exactly
29,780 iterations, one poll each, and then is over; it emits one framebuffer when it starts at scan position 59,562 or
later and none otherwise. The step that takes up the operation is the model's (log 1). -/
def Obligations.RunFrameDoesItsIterations : Prop :=
  ∀ (s : State) (ops : List HostOp), s.issued .runFrame ops → s.loaded = true → s.countersInRange →
    (∀ k, k ≤ 29780 → ∃ u, s.runsTo (k + 1) u ∧ u.remaining = 29780 - k ∧ u.polls = s.polls + k ∧ u.pending = ops) ∧
    ∃ t, s.runsTo (29780 + 1) t ∧ t.remaining = 0 ∧ t.scanPos = (s.scanPos + 29780) % 89342 ∧
      t.frame = s.frame + (if 59562 ≤ s.scanPos then 1 else 0) ∧
      t.framesEmitted = s.framesEmitted + (if 59562 ≤ s.scanPos then 1 else 0)

/-- 47_frame_loop_and_host.md R235: on an engine that is not loaded, `runFrame` changes nothing; the operation leaves
the host's queue, which is the model's own field (log 2). -/
def Obligations.UnloadedRunFrameDoesNothing : Prop :=
  ∀ (s : State) (ops : List HostOp), s.issued .runFrame ops → s.loaded = false → step s = .next { s with pending := ops }

/-! ### Framebuffer -/

/-- 46_framebuffer.md R217, R219: the sampled address, the channels of R218 and the packing of a pixel. -/
def Obligations.PixelValueFromItsSample : Prop :=
  ∀ (m : Memory) (frame x y : Nat), x < 256 → y < 240 →
    let v := (m.read (0x8000 + (x + y * 256) % 0x8000)).toNat
    (pixelAt m frame x y).toNat
      = 255 * 2 ^ 24 + ((v * 3 + y) % 256) * 2 ^ 16 + ((v * 2 + x) % 256) * 2 ^ 8 + (v + frame) % 256 ∧
    (y < 128 → sampleAddr x y = 0x8000 + x + y * 256) ∧
    (128 ≤ y → sampleAddr x y = 0x8000 + x + (y - 128) * 256)

/-- 46_framebuffer.md R216, R221: 61,440 elements, pixel `(x, y)` at element `x + y * 256` (D19, log 21). -/
def Obligations.FramebufferHoldsEveryPixelAtItsIndex : Prop :=
  ∀ (m : Memory) (frame : Nat), (framebuffer m frame).length = 61440 ∧
    ∀ x y, x < 256 → y < 240 → (framebuffer m frame)[x + y * 256]? = some (pixelAt m frame x y)

/-- 46_framebuffer.md R215: the framebuffer depends on the program region and on `frame mod 256` only. -/
def Obligations.FramebufferReadsOnlyProgramRegionAndFrame : Prop :=
  ∀ (m m' : Memory) (f f' : Nat), (∀ a, 0x8000 ≤ a → a ≤ 0xFFFF → m.read a = m'.read a) → f % 256 = f' % 256 →
    framebuffer m f = framebuffer m' f'

/-! ### Input -/

/-- 47_frame_loop_and_host.md R232, R233: the packed answer is stored at `INPUT_REG_ADDR`, every other byte of memory
and every other field stays, and one poll is made. The answer is the oldest that stands ready, and a free value when
none does, which no rule constrains (log 4). -/
def Obligations.InputStepStoresThePackedAnswer : Prop :=
  ∀ s : State, s.mem.wf 65536 = true →
    (∀ a, s.inputStep.mem.read a =
      if a = s.config.inputRegAddr.toNat then packButtons s.config.buttonOrder s.nextAnswer else s.mem.read a) ∧
    s.inputStep = { s with mem := s.inputStep.mem, inputs := s.inputs.tail, polls := s.polls + 1 } ∧
    (∀ b rest, s.inputs = b :: rest → s.nextAnswer = b) ∧ (s.inputs = [] → s.nextAnswer = Config.freeButtons s.polls)

/-- 47_frame_loop_and_host.md R233, 10_state.md R37: bit `k` of the input byte is the pressed state of the order's
button `k`; in the listing order (D4, log 7) the bits are up, down, left, right, a, b, select, start. -/
def Obligations.InputByteBitsAreTheButtons : Prop :=
  (∀ (o : ButtonOrder) (b : Buttons) (k : Nat), k < 8 →
    (packButtons o b).getLsbD k = buttonPressed b (o.button k)) ∧
  ∀ b : Buttons,
    (packButtons ButtonOrder.listing b).toNat =
      b.up.toNat + 2 * b.down.toNat + 4 * b.left.toNat + 8 * b.right.toNat + 16 * b.a.toNat + 32 * b.b.toNat +
        64 * b.select.toNat + 128 * b.start.toNat

/-! ### Reset and power-on -/

/-- 70_reset_and_hazards.md R293, and the counters of R294: the registers and counters after a host `reset()`, whatever
the state before. No framebuffer is emitted. -/
def Obligations.ResetRestoresRegistersAndCounters : Prop :=
  ∀ (s : State) (ops : List HostOp), s.issued .reset ops → ∃ t, step s = .next t ∧
    t.sp = 0xFF ∧ t.a = 0 ∧ t.x = 0 ∧ t.y = 0 ∧ t.p = 0x24 ∧ t.cycle = 0 ∧ t.scanline = 0 ∧ t.frame = 0 ∧
    t.outputs = s.outputs

/-- 70_reset_and_hazards.md R291, R292: `PC` at reset is the little-endian word at `RESET_VEC`, and 0x8000 when both
bytes are zero (D2, log 19). -/
def Obligations.ResetTakesTheVectorOrFallsBack : Prop :=
  ∀ s : State,
    let v := (s.mem.read s.config.resetVec.val).toNat + 256 * (s.mem.read (s.config.resetVec.val + 1)).toNat
    s.resetEngine.pc.toNat = if v = 0 then 0x8000 else v

/-- 70_reset_and_hazards.md R295, 10_state.md R41: what reset leaves alone; a second reset changes nothing. -/
def Obligations.ResetLeavesMemoryAndIsIdempotent : Prop :=
  ∀ s : State, s.resetEngine.resetEngine = s.resetEngine ∧
    (∀ a, s.resetEngine.mem.read a = s.mem.read a) ∧ (∀ a, s.resetEngine.vram.read a = s.vram.read a) ∧
    (∀ a, s.resetEngine.oam.read a = s.oam.read a) ∧ (∀ a, s.resetEngine.pal.read a = s.pal.read a) ∧
    s.resetEngine.loaded = s.loaded ∧ s.resetEngine.remaining = s.remaining ∧ s.resetEngine.config = s.config ∧
    s.resetEngine.pending = s.pending ∧ s.resetEngine.inputs = s.inputs ∧ s.resetEngine.polls = s.polls ∧
    s.resetEngine.outputs = s.outputs

/-- 10_state.md R29, R40; 70_reset_and_hazards.md R298: a new engine has zero memory, is not loaded, and holds the values
that `reset()` gives over zero memory (D17, log 20), for every value of the open parameters. -/
def Obligations.PowerOnIsResetOverZeroMemory : Prop :=
  ∀ c : Config, (State.powerOn c).resetEngine = State.powerOn c ∧ (State.powerOn c).loaded = false ∧
    (State.powerOn c).pc = 0x8000 ∧
    ∀ a, (State.powerOn c).mem.read a = 0 ∧ (State.powerOn c).vram.read a = 0 ∧ (State.powerOn c).oam.read a = 0 ∧
      (State.powerOn c).pal.read a = 0

/-- 10_state.md R25, R26: the reset pattern of `P` has bits 5 and 2 set and all others clear. -/
def Obligations.ResetStatusHasBitsFiveAndTwo : Prop :=
  ∀ (s : State) (k : Fin 8), s.resetEngine.statusBit k = decide (k = 5 ∨ k = 2)

/-! ### Loader -/

/-- 40_cartridge_loader.md R121, R122: an image of fewer than 16 bytes gives `TooSmall` and changes nothing (D16, log 17);
one of 16 bytes or more is accepted. -/
def Obligations.ShortImageIsTooSmall : Prop :=
  ∀ (s : State) (img : List Byte) (ops : List HostOp), s.issued (.loadROM img) ops →
    (img.length < 16 →
      step s = .next { s with pending := ops, outputs := .loadResult .tooSmall :: s.outputs }) ∧
    (16 ≤ img.length → ∃ t, step s = .next t ∧ t.outputs = .loadResult .success :: s.outputs)

/-- 40_cartridge_loader.md R131: after placement `loaded` becomes true, the reset executes over the memory just written,
and `loadROM` returns success. -/
def Obligations.LoadEndsWithLoadedAndReset : Prop :=
  ∀ (s : State) (img : List Byte) (ops : List HostOp), s.issued (.loadROM img) ops → 16 ≤ img.length →
    ∃ t, step s = .next t ∧ t.loaded = true ∧
      t = ({ s with pending := ops, mem := t.mem, vram := t.vram, loaded := true }).resetEngine.emit
        (.loadResult .success)

/-- 40_cartridge_loader.md R130: the first 32,768 bytes of a generic image lie from 0x8000 upward, the rest of the region
and all of `vram` are zero (the zeros are D12, log 14). -/
def Obligations.GenericImageIsPlacedWhole : Prop :=
  ∀ (s : State) (img : List Byte) (ops : List HostOp), s.storesCanonical → s.issued (.loadROM img) ops →
    16 ≤ img.length → img.take 4 ≠ s.config.magic.bytes → ∃ t, step s = .next t ∧
      (∀ i, i < 0x8000 → t.mem.read (0x8000 + i) = if i < min img.length 32768 then img.getD i 0 else 0) ∧
      ∀ i, t.vram.read i = 0

/-- 40_cartridge_loader.md R126, R127: the program of a recognized image from 0x8000, capped, with zeros after it, and
its mirror when the program is one unit (D12, D13, D15; log 14, 15, 16). -/
def Obligations.RecognizedImagePlacesProgramAndMirror : Prop :=
  ∀ (s : State) (img : List Byte) (ops : List HostOp), s.storesCanonical → s.issued (.loadROM img) ops →
    16 ≤ img.length → img.take 4 = s.config.magic.bytes → ∃ t, step s = .next t ∧
      let units := (img.getD 4 0).toNat
      let n := min (min (units * 16384) 0x8000) (img.length - 16)
      (∀ i, i < 0x8000 → (units ≠ 1 ∨ i < 0x4000) →
        t.mem.read (0x8000 + i) = if i < n then img.getD (16 + i) 0 else 0) ∧
      (units = 1 → ∀ i, i < 0x4000 → t.mem.read (0xC000 + i) = t.mem.read (0x8000 + i))

/-- 40_cartridge_loader.md R128: the graphics of a recognized image from `vram[0]`, read after the declared program size,
capped, with zeros after it (D12, D14; log 14, 15). -/
def Obligations.RecognizedImagePlacesGraphics : Prop :=
  ∀ (s : State) (img : List Byte) (ops : List HostOp), s.storesCanonical → s.issued (.loadROM img) ops →
    16 ≤ img.length → img.take 4 = s.config.magic.bytes → ∃ t, step s = .next t ∧
      let off := 16 + (img.getD 4 0).toNat * 16384
      let n := min (min ((img.getD 5 0).toNat * 8192) 16384) (img.length - off)
      ∀ i, t.vram.read i = if i < n then img.getD (off + i) 0 else 0

/-- 40_cartridge_loader.md R134: a load leaves low memory, `oam` and `pal` as they were. That it zeroes nothing of them
is the "nothing else" of D12 (R123, log 14). The rest of the host's queue waits (the queue is the model's, log 2). -/
def Obligations.LoadLeavesLowMemoryAndOtherBuffers : Prop :=
  ∀ (s t : State) (img : List Byte) (ops : List HostOp), s.storesCanonical → s.issued (.loadROM img) ops →
    step s = .next t →
      (∀ a, a < 0x8000 → t.mem.read a = s.mem.read a) ∧ (∀ i, t.oam.read i = s.oam.read i) ∧
      (∀ i, t.pal.read i = s.pal.read i) ∧ t.inputs = s.inputs ∧ t.polls = s.polls ∧ t.pending = ops

/-- 40_cartridge_loader.md R123: nothing of an earlier image is left. Two engines with the same parameters, whatever they
held before, hold the same program region and the same `vram` after loading one image (D12, log 14). -/
def Obligations.LoadForgetsTheEarlierImage : Prop :=
  ∀ (s s' t t' : State) (img : List Byte) (ops ops' : List HostOp), s.storesCanonical → s'.storesCanonical →
    s.config = s'.config → s.issued (.loadROM img) ops → s'.issued (.loadROM img) ops' → 16 ≤ img.length →
    step s = .next t → step s' = .next t' →
      (∀ a, 0x8000 ≤ a → a ≤ 0xFFFF → t.mem.read a = t'.mem.read a) ∧ ∀ i, t.vram.read i = t'.vram.read i

/-- 40_cartridge_loader.md R134: loading the same image twice leaves the state that loading it once leaves, but for the
second result handed out. -/
def Obligations.LoadingTwiceIsLoadingOnce : Prop :=
  ∀ (s : State) (img : List Byte), s.storesCanonical → 16 ≤ img.length →
    (s.loadROM img).loadROM img = (s.loadROM img).emit (.loadResult .success)

/-- 47_frame_loop_and_host.md R244: `isLoaded()` returns the value of `loaded` and changes nothing; the operation leaves
the host's queue. -/
def Obligations.IsLoadedReturnsTheFlag : Prop :=
  ∀ (s : State) (ops : List HostOp), s.issued .isLoaded ops →
    step s = .next { s with pending := ops, outputs := .loadedFlag s.loaded :: s.outputs }

/-! ### Rules about the whole machine -/

/-- 10_state.md R36: no step clears `loaded`, and only a successful `loadROM` sets it. -/
def Obligations.OnlyASuccessfulLoadSetsLoaded : Prop :=
  ∀ s t : State, step s = .next t →
    (s.loaded = true → t.loaded = true) ∧
    (s.loaded = false → t.loaded = true → ∃ img ops, s.issued (.loadROM img) ops ∧ 16 ≤ img.length)

/-- 20_memory.md R61, 10_state.md R29: a byte of memory other than the input byte changes only in a successful load, and
only in the program region. No instruction writes memory. -/
def Obligations.OnlyLoadWritesOtherMemory : Prop :=
  ∀ (s t : State) (a : Nat), s.storesCanonical → step s = .next t → a ≠ s.config.inputRegAddr.toNat →
    t.mem.read a ≠ s.mem.read a →
      0x8000 ≤ a ∧ a ≤ 0xFFFF ∧ ∃ img ops, s.issued (.loadROM img) ops ∧ 16 ≤ img.length

/-- 10_state.md R30, R31, R32: `vram` changes only in a successful load; `oam` and `pal` never change. -/
def Obligations.OnlyLoadWritesVideoRam : Prop :=
  ∀ s t : State, step s = .next t →
    t.oam = s.oam ∧ t.pal = s.pal ∧
    (t.vram ≠ s.vram → ∃ img ops, s.issued (.loadROM img) ops ∧ 16 ≤ img.length)

/-- 10_state.md R22, R24, R25, R27: `SP`, `X`, `Y` and `P` keep their values in every step but a reset and the reset at
the end of a successful load, which give them their reset values. That no instruction writes them is D8 (log 11). -/
def Obligations.OnlyResetWritesInertRegisters : Prop :=
  ∀ s t : State, step s = .next t →
    (t.sp = s.sp ∧ t.x = s.x ∧ t.y = s.y ∧ t.p = s.p) ∨
    (t.inertRegisters ∧ ∃ op ops, s.issued op ops ∧ (op = .reset ∨ ∃ img, op = .loadROM img ∧ 16 ≤ img.length))

/-- 10_state.md R35, 90_conflicts.md C8: `frame` never goes down but at a reset, where it becomes 0, and goes up by at
most one in a step. -/
def Obligations.FrameCounterIsMonotonicBetweenResets : Prop :=
  ∀ s t : State, step s = .next t →
    (s.frame ≤ t.frame ∧ t.frame ≤ s.frame + 1) ∨
    (t.frame = 0 ∧ ∃ op ops, s.issued op ops ∧ (op = .reset ∨ ∃ img, op = .loadROM img ∧ 16 ≤ img.length))

/-- 10_state.md R38 (d): the open parameters are configuration; no step changes them (that they stand in the state is the
model's, log 6). -/
def Obligations.ParametersNeverChange : Prop := ∀ s t : State, step s = .next t → t.config = s.config

/-- 10_state.md R23, R26, R27: no rule reads `A`, `X`, `Y`, `SP` or `P`. A step from a state with other values in them
differs from the step without in these registers only. -/
def Obligations.RegistersOtherThanPcInfluenceNothing : Prop :=
  ∀ (s t : State) (sp a x y p : Byte), step s = .next t →
    ∃ t', step { s with sp := sp, a := a, x := x, y := y, p := p } = .next t' ∧
      t' = { t with sp := t'.sp, a := t'.a, x := t'.x, y := t'.y, p := t'.p }

/-- 10_state.md R30 to R32, 45_ppu_step.md R207: nothing reads `vram`, `oam` or `pal`; the framebuffers handed out, too,
are the same whatever these hold. -/
def Obligations.PictureBuffersInfluenceNothing : Prop :=
  ∀ (s t : State) (vram oam pal : Memory), step s = .next t →
    ∃ t', step { s with vram := vram, oam := oam, pal := pal } = .next t' ∧
      t' = { t with vram := t'.vram, oam := t'.oam, pal := t'.pal }

/-- 60_exceptions.md R268, 45_ppu_step.md R207: the program cannot see the picture-unit counters. Other counts change no
register, no byte of memory, no poll and nothing of the host's queue. -/
def Obligations.CountersAreInvisibleToPrograms : Prop :=
  ∀ (s t : State) (c l f : Nat), step s = .next t →
    ∃ t', step { s with cycle := c, scanline := l, frame := f } = .next t' ∧
      t' = { t with cycle := t'.cycle, scanline := t'.scanline, frame := t'.frame, outputs := t'.outputs }

/-- 10_state.md R42 at power-on, for every value of the open parameters, `State.reset` among them. That the registers,
the counters, `vram`, `oam` and `pal` hold these values at power-on is D17 (R40, log 20): R42 itself gives `SP`, `X`, `Y`
and `P` only after the first reset. -/
def Obligations.InvariantHoldsAtReset : Prop := State.reset.Inv ∧ ∀ c : Config, (State.powerOn c).Inv

/-- 10_state.md R42: counters in range, stores canonical and inside their sizes, `oam` and `pal` zero, `SP`, `X`, `Y`,
`P` at their reset values, a run in bounds: kept by every step from every state that has them. That no instruction
writes `SP`, `X`, `Y` or `P` is D8 (log 11); the iterations left of a run, and so their bound, are log 3. -/
def Obligations.EveryStepKeepsTheInvariant : Prop := ∀ s t : State, s.Inv → step s = .next t → t.Inv

/-! ### The stores -/

/-- 40_cartridge_loader.md R123, R126, R127: zeroing, placing and copying a range at once are the byte-by-byte loops of
the rules (the range operations are the model's, log 27). -/
def Obligations.RangeOperationsAreTheLoops : Prop :=
  ∀ (size : Nat) (m : Memory), m.wf size = true →
    (∀ base n, base + n ≤ size →
      m.zeroRange base n = (List.range n).foldl (fun acc i => acc.write (base + i) 0) m) ∧
    (∀ (base : Nat) (bs : List Byte), base + bs.length ≤ size →
      m.place base bs = (List.range bs.length).foldl (fun acc i => acc.write (base + i) (bs.getD i 0)) m) ∧
    (∀ src dst n, src + n ≤ dst → dst + n ≤ size →
      m.copyRange src dst n = (List.range n).foldl (fun acc i => acc.write (dst + i) (acc.read (src + i))) m)

/-- The canonical form is one per content: two stores in it that read alike everywhere are equal. The form is the
model's (20_memory.md R60 gives the stores as arrays). -/
def Obligations.EqualReadsMakeEqualStores : Prop :=
  ∀ (size : Nat) (m m' : Memory), m.wf size = true → m'.wf size = true → (∀ a, m.read a = m'.read a) → m = m'

/-- The host's loading of a word (log 26): the next step fetches exactly the instruction the decoder reads from the
opcode-table word, a `runFrame` is in progress, and every byte but the three at `PC` is as before. -/
def Obligations.WithFetchWordIsWhatIsFetched : Prop :=
  ∀ (s : State) (nbits w : Nat), s.mem.wf 65536 = true →
    decodeTableWord nbits w = some (s.withFetchWord nbits w).fetchInstr ∧ (s.withFetchWord nbits w).remaining ≠ 0 ∧
    (s.withFetchWord nbits w).pc = s.pc ∧
    ∀ a, a ≠ s.pc.toNat → a ≠ (s.pc.toNat + 1) % 65536 → a ≠ (s.pc.toNat + 2) % 65536 →
      (s.withFetchWord nbits w).mem.read a = s.mem.read a
end

