-- ==== Sys2Proof/Laws/Decode.lean ====
section
/-! SUPPORT. Small facts about the words and the decoder. -/

namespace Sys2Proof

@[simp] theorem lowByte_wordOfBytes (lo hi : Byte) : lowByte (wordOfBytes lo hi) = lo := by
  apply BitVec.eq_of_toNat_eq
  simp only [lowByte, wordOfBytes, BitVec.extractLsb'_toNat, BitVec.toNat_append]
  have := lo.isLt
  rw [Nat.shiftRight_zero, ← Nat.shiftLeft_add_eq_or_of_lt this, Nat.shiftLeft_eq]
  omega

@[simp] theorem highByte_wordOfBytes (lo hi : Byte) : highByte (wordOfBytes lo hi) = hi := by
  apply BitVec.eq_of_toNat_eq
  simp only [highByte, wordOfBytes, BitVec.extractLsb'_toNat, BitVec.toNat_append]
  have := lo.isLt
  have := hi.isLt
  rw [← Nat.shiftLeft_add_eq_or_of_lt (by assumption), Nat.shiftLeft_eq, Nat.shiftRight_eq_div_pow]
  omega

/-- The word of two bytes as a number (20_memory.md R62). -/
theorem wordOfBytes_toNat (lo hi : Byte) : (wordOfBytes lo hi).toNat = lo.toNat + 256 * hi.toNat := by
  have := lo.isLt
  simp only [wordOfBytes, BitVec.toNat_append]
  rw [← Nat.shiftLeft_add_eq_or_of_lt (by assumption), Nat.shiftLeft_eq]
  omega

@[simp] theorem wordOfBytes_low_high (w : Word) : wordOfBytes (lowByte w) (highByte w) = w := by
  apply BitVec.eq_of_toNat_eq
  have := w.isLt
  simp only [wordOfBytes_toNat, lowByte, highByte, BitVec.extractLsb'_toNat,
    Nat.shiftRight_eq_div_pow]
  omega

/-- The four kinds of instruction, by the opcode (30_encoding.md R95). -/
theorem decodeBytes_cases (b0 b1 b2 : Byte) :
    (b0 = opNop ∧ decodeBytes b0 b1 b2 = .nop) ∨
    (b0 = opJmp ∧ decodeBytes b0 b1 b2 = .jmp (wordOfBytes b1 b2)) ∨
    (b0 = opLda ∧ decodeBytes b0 b1 b2 = .lda b1) ∨
    ((Instr.dnop b0).wellFormed = true ∧ decodeBytes b0 b1 b2 = .dnop b0) := by
  unfold decodeBytes
  split
  · exact .inl ⟨by assumption, rfl⟩
  · split
    · exact .inr (.inl ⟨by assumption, rfl⟩)
    · split
      · exact .inr (.inr (.inl ⟨by assumption, rfl⟩))
      · exact .inr (.inr (.inr ⟨by simp_all [Instr.wellFormed], rfl⟩))

/-- What the decoder reads is well formed. -/
theorem decodeBytes_wellFormed (b0 b1 b2 : Byte) : (decodeBytes b0 b1 b2).wellFormed = true := by
  obtain ⟨-, h⟩ | ⟨-, h⟩ | ⟨-, h⟩ | ⟨hw, h⟩ := decodeBytes_cases b0 b1 b2 <;> rw [h]
  · rfl
  · rfl
  · rfl
  · exact hw

end Sys2Proof
end

