-- ==== Sys2Proof/Laws/Memory.lean ====
section
/-! SUPPORT. Byte stores: every operation keeps the canonical form, and what a read gives after each operation. -/

namespace Sys2Proof.Machine

/-! ### The canonical form -/

@[simp] theorem Memory.wfFrom_nil (lo hi : Nat) : Memory.wfFrom lo hi [] = true := rfl

@[simp] theorem Memory.wfFrom_cons (lo hi a : Nat) (v : Byte) (m : Memory) :
    Memory.wfFrom lo hi ((a, v) :: m) = true ↔
      lo ≤ a ∧ a < hi ∧ v ≠ 0 ∧ Memory.wfFrom (a + 1) hi m = true := by
  simp [Memory.wfFrom, and_assoc]

/-- The range may be widened. -/
theorem Memory.wfFrom_mono {lo lo' hi hi' : Nat} {m : Memory} (hl : lo' ≤ lo) (hh : hi ≤ hi')
    (h : Memory.wfFrom lo hi m = true) : Memory.wfFrom lo' hi' m = true := by
  induction m generalizing lo lo' with
  | nil => rfl
  | cons c m ih =>
    obtain ⟨a, v⟩ := c
    rw [Memory.wfFrom_cons] at h ⊢
    exact ⟨by omega, by omega, h.2.2.1, ih le_rfl h.2.2.2⟩

/-- Two canonical stretches, one below the other, make a canonical store. -/
theorem Memory.wfFrom_append {lo mid hi : Nat} {m₁ m₂ : Memory} (hlm : lo ≤ mid) (hmh : mid ≤ hi)
    (h₁ : Memory.wfFrom lo mid m₁ = true) (h₂ : Memory.wfFrom mid hi m₂ = true) :
    Memory.wfFrom lo hi (m₁ ++ m₂) = true := by
  induction m₁ generalizing lo with
  | nil => exact Memory.wfFrom_mono hlm le_rfl h₂
  | cons c m ih =>
    obtain ⟨a, v⟩ := c
    simp only [List.cons_append, Memory.wfFrom_cons] at h₁ ⊢
    exact ⟨h₁.1, by omega, h₁.2.2.1, ih (by omega) h₁.2.2.2⟩

theorem Memory.below_wf {lo hi : Nat} {m : Memory} (a : Nat) (h : Memory.wfFrom lo hi m = true) :
    Memory.wfFrom lo (min a hi) (m.below a) = true := by
  induction m generalizing lo with
  | nil => rfl
  | cons c m ih =>
    obtain ⟨b, v⟩ := c
    rw [Memory.wfFrom_cons] at h
    have ih := ih h.2.2.2
    simp only [Memory.below, List.filter_cons, decide_eq_true_eq] at ih ⊢
    split
    · rw [Memory.wfFrom_cons]
      exact ⟨h.1, by omega, h.2.2.1, ih⟩
    · exact Memory.wfFrom_mono (by omega) le_rfl ih

theorem Memory.above_wf {lo hi : Nat} {m : Memory} (a : Nat) (h : Memory.wfFrom lo hi m = true) :
    Memory.wfFrom (max a lo) hi (m.above a) = true := by
  induction m generalizing lo with
  | nil => rfl
  | cons c m ih =>
    obtain ⟨b, v⟩ := c
    rw [Memory.wfFrom_cons] at h
    have ih := ih h.2.2.2
    simp only [Memory.above, List.filter_cons, decide_eq_true_eq] at ih ⊢
    split
    · rw [Memory.wfFrom_cons]
      exact ⟨by omega, h.2.1, h.2.2.1, Memory.wfFrom_mono (by omega) le_rfl ih⟩
    · exact Memory.wfFrom_mono (by omega) le_rfl ih

theorem Memory.ofBytes_wf (base : Nat) (bs : List Byte) :
    Memory.wfFrom base (base + bs.length) (Memory.ofBytes base bs) = true := by
  induction bs generalizing base with
  | nil => rfl
  | cons v bs ih =>
    have h := ih (base + 1)
    simp only [Memory.ofBytes, List.length_cons]
    split
    · exact Memory.wfFrom_mono (by omega) (by omega) h
    · rw [Memory.wfFrom_cons]
      exact ⟨le_rfl, by omega, by assumption, Memory.wfFrom_mono le_rfl (by omega) h⟩

theorem Memory.write_wfFrom {lo hi : Nat} {m : Memory} {a : Nat} (v : Byte) (hl : lo ≤ a) (ha : a < hi)
    (h : Memory.wfFrom lo hi m = true) : Memory.wfFrom lo hi (m.write a v) = true := by
  induction m generalizing lo with
  | nil =>
    simp only [Memory.write]
    split
    · rfl
    · rw [Memory.wfFrom_cons]; exact ⟨hl, ha, by assumption, rfl⟩
  | cons c m ih =>
    obtain ⟨b, w⟩ := c
    rw [Memory.wfFrom_cons] at h
    obtain ⟨h1, h2, h3, h4⟩ := h
    simp only [Memory.write]
    split
    · split
      · rw [Memory.wfFrom_cons]; exact ⟨h1, h2, h3, h4⟩
      · rw [Memory.wfFrom_cons, Memory.wfFrom_cons]
        exact ⟨hl, ha, by assumption, by omega, h2, h3, h4⟩
    · split
      · split
        · exact Memory.wfFrom_mono (by omega) le_rfl h4
        · rw [Memory.wfFrom_cons]
          exact ⟨hl, ha, by assumption, Memory.wfFrom_mono (by omega) le_rfl h4⟩
      · rw [Memory.wfFrom_cons]
        exact ⟨h1, h2, h3, ih (by omega) h4⟩

/-- A byte write keeps the canonical form. -/
theorem Memory.write_wf {size : Nat} {m : Memory} {a : Nat} (v : Byte) (ha : a < size)
    (h : m.wf size = true) : (m.write a v).wf size = true :=
  Memory.write_wfFrom v (Nat.zero_le a) ha h

/-- Zeroing a range keeps the canonical form. -/
theorem Memory.zeroRange_wf {size : Nat} {m : Memory} (base n : Nat) (h : m.wf size = true) :
    (m.zeroRange base n).wf size = true := by
  have hb := Memory.below_wf base h
  have ha := Memory.above_wf (base + n) h
  refine Memory.wfFrom_append (mid := min base size) (Nat.zero_le _) (min_le_right _ _) hb ?_
  exact Memory.wfFrom_mono (by omega) le_rfl ha

/-- Placing bytes inside the store keeps the canonical form. -/
theorem Memory.place_wf {size : Nat} {m : Memory} {base : Nat} {bs : List Byte}
    (hfit : base + bs.length ≤ size) (h : m.wf size = true) : (m.place base bs).wf size = true := by
  have hb := Memory.below_wf base h
  have hm := Memory.ofBytes_wf base bs
  have ha := Memory.above_wf (base + bs.length) h
  have hb' : Memory.wfFrom 0 base (m.below base) = true := Memory.wfFrom_mono le_rfl (by omega) hb
  refine Memory.wfFrom_append (Nat.zero_le _) (by omega) hb' ?_
  exact Memory.wfFrom_append (mid := base + bs.length) (by omega) hfit hm
    (Memory.wfFrom_mono (by omega) le_rfl ha)

/-- Shifting a canonical stretch from `src` to `dst`. -/
theorem Memory.shift_wf {src dst lo hi : Nat} {m : Memory} (hs : src ≤ lo)
    (h : Memory.wfFrom lo hi m = true) :
    Memory.wfFrom (lo - src + dst) (hi - src + dst) (m.map fun c => (c.1 - src + dst, c.2)) = true := by
  induction m generalizing lo with
  | nil => rfl
  | cons c m ih =>
    obtain ⟨a, v⟩ := c
    rw [Memory.wfFrom_cons] at h
    have ih := ih (by omega) h.2.2.2
    simp only [List.map_cons, Memory.wfFrom_cons]
    exact ⟨by omega, by omega, h.2.2.1, Memory.wfFrom_mono (by omega) le_rfl ih⟩

/-- Copying a range inside the store keeps the canonical form. -/
theorem Memory.copyRange_wf {size : Nat} {m : Memory} {src dst n : Nat} (hfit : dst + n ≤ size)
    (h : m.wf size = true) : (m.copyRange src dst n).wf size = true := by
  have hb := Memory.below_wf dst h
  have hs := Memory.below_wf (src + n) (Memory.above_wf src h)
  have ha := Memory.above_wf (dst + n) h
  have hb' : Memory.wfFrom 0 dst (m.below dst) = true := Memory.wfFrom_mono le_rfl (by omega) hb
  have hs' : Memory.wfFrom src (src + n) ((m.above src).below (src + n)) = true :=
    Memory.wfFrom_mono (by omega) (by omega) hs
  refine Memory.wfFrom_append (Nat.zero_le _) (by omega) hb' ?_
  refine Memory.wfFrom_append (mid := dst + n) (by omega) hfit ?_ (Memory.wfFrom_mono (by omega) le_rfl ha)
  exact Memory.wfFrom_mono (by omega) (by omega) (Memory.shift_wf (dst := dst) le_rfl hs')

/-! ### Reads -/

@[simp] theorem Memory.read_nil (a : Nat) : Memory.read [] a = 0 := rfl

@[simp] theorem Memory.read_cons (b : Nat) (v : Byte) (m : Memory) (a : Nat) :
    Memory.read ((b, v) :: m) a = if b = a then v else m.read a := rfl

/-- An address outside a canonical stretch reads as zero. -/
theorem Memory.read_outside {lo hi : Nat} {m : Memory} {a : Nat} (h : Memory.wfFrom lo hi m = true)
    (ha : a < lo ∨ hi ≤ a) : m.read a = 0 := by
  induction m generalizing lo with
  | nil => rfl
  | cons c m ih =>
    obtain ⟨b, v⟩ := c
    rw [Memory.wfFrom_cons] at h
    rw [Memory.read_cons, if_neg (by omega)]
    exact ih h.2.2.2 (by omega)

/-- Reading two stretches laid one after the other. -/
theorem Memory.read_append {lo mid hi : Nat} {m₁ m₂ : Memory} (h₁ : Memory.wfFrom lo mid m₁ = true)
    (h₂ : Memory.wfFrom mid hi m₂ = true) (a : Nat) :
    Memory.read (m₁ ++ m₂) a = if a < mid then m₁.read a else m₂.read a := by
  induction m₁ generalizing lo with
  | nil =>
    simp only [List.nil_append, Memory.read_nil]
    split
    · exact Memory.read_outside h₂ (by omega)
    · rfl
  | cons c m ih =>
    obtain ⟨b, v⟩ := c
    rw [Memory.wfFrom_cons] at h₁
    rw [List.cons_append, Memory.read_cons, Memory.read_cons, ih h₁.2.2.2]
    split
    · rw [if_pos (by omega)]
    · rfl

/-- A read after a write gives the value written at its address and the old byte elsewhere. -/
theorem Memory.read_write {lo hi : Nat} {m : Memory} (h : Memory.wfFrom lo hi m = true) (a b : Nat) (v : Byte) :
    (m.write a v).read b = if b = a then v else m.read b := by
  induction m generalizing lo with
  | nil =>
    simp only [Memory.write]
    by_cases hb : b = a
    · subst hb; split <;> simp_all
    · rw [if_neg hb]
      split
      · rfl
      · rw [Memory.read_cons, if_neg (Ne.symm hb)]
  | cons c m ih =>
    obtain ⟨k, w⟩ := c
    rw [Memory.wfFrom_cons] at h
    have hout : ∀ d, d ≤ k → Memory.read m d = 0 := fun d hd => Memory.read_outside h.2.2.2 (by omega)
    simp only [Memory.write]
    split
    · rename_i hlt
      split
      · rename_i hv
        by_cases hb : b = a
        · subst hb; rw [if_pos rfl, Memory.read_cons, if_neg (by omega), hout b (by omega), hv]
        · rw [if_neg hb]
      · rw [Memory.read_cons]
        by_cases hb : b = a
        · rw [if_pos hb, if_pos hb.symm]
        · rw [if_neg hb, if_neg (Ne.symm hb)]
    · split
      · rename_i _ hak
        split
        · rename_i hv
          by_cases hb : b = a
          · rw [if_pos hb, hout b (by omega), hv]
          · rw [if_neg hb, Memory.read_cons, if_neg (by omega)]
        · rw [Memory.read_cons, Memory.read_cons]
          by_cases hb : b = a
          · rw [if_pos hb, if_pos hb.symm]
          · rw [if_neg hb, if_neg (Ne.symm hb), if_neg (by omega)]
      · rw [Memory.read_cons, Memory.read_cons, ih h.2.2.2]
        by_cases hb : k = b
        · rw [if_pos hb, if_pos hb, if_neg (by omega)]
        · rw [if_neg hb, if_neg hb]

theorem Memory.read_below (m : Memory) (a b : Nat) : (m.below a).read b = if b < a then m.read b else 0 := by
  induction m with
  | nil => simp [Memory.below]
  | cons c m ih =>
    obtain ⟨k, v⟩ := c
    simp only [Memory.below, List.filter_cons, decide_eq_true_eq] at ih ⊢
    by_cases hk : k < a
    · rw [if_pos hk, Memory.read_cons, Memory.read_cons, ih]
      by_cases hb : k = b
      · rw [if_pos hb, if_pos hb, if_pos (by omega)]
      · rw [if_neg hb, if_neg hb]
    · rw [if_neg hk, ih, Memory.read_cons]
      by_cases hb : b < a
      · rw [if_pos hb, if_pos hb, if_neg (by omega)]
      · rw [if_neg hb, if_neg hb]

theorem Memory.read_above (m : Memory) (a b : Nat) : (m.above a).read b = if a ≤ b then m.read b else 0 := by
  induction m with
  | nil => simp [Memory.above]
  | cons c m ih =>
    obtain ⟨k, v⟩ := c
    simp only [Memory.above, List.filter_cons, decide_eq_true_eq] at ih ⊢
    by_cases hk : a ≤ k
    · rw [if_pos hk, Memory.read_cons, Memory.read_cons, ih]
      by_cases hb : k = b
      · rw [if_pos hb, if_pos hb, if_pos (by omega)]
      · rw [if_neg hb, if_neg hb]
    · rw [if_neg hk, ih, Memory.read_cons]
      by_cases hb : a ≤ b
      · rw [if_pos hb, if_pos hb, if_neg (by omega)]
      · rw [if_neg hb, if_neg hb]

theorem Memory.read_ofBytes (base : Nat) (bs : List Byte) (a : Nat) :
    (Memory.ofBytes base bs).read a = if base ≤ a then bs.getD (a - base) 0 else 0 := by
  induction bs generalizing base with
  | nil => simp [Memory.ofBytes]
  | cons v bs ih =>
    have key : (if base = a then v else (Memory.ofBytes (base + 1) bs).read a)
        = if base ≤ a then (v :: bs).getD (a - base) 0 else 0 := by
      by_cases hb : base = a
      · subst hb; simp
      · rw [if_neg hb, ih]
        by_cases hle : base ≤ a
        · rw [if_pos (by omega), if_pos hle, show a - base = (a - (base + 1)) + 1 from by omega]
          simp
        · rw [if_neg (by omega), if_neg hle]
    simp only [Memory.ofBytes]
    split
    · rename_i hv
      rw [← key]
      by_cases hb : base = a
      · rw [if_pos hb, Memory.read_outside (Memory.ofBytes_wf (base + 1) bs) (by omega), hv]
      · rw [if_neg hb]
    · rw [Memory.read_cons, key]

theorem Memory.read_shift {src dst lo hi : Nat} {m : Memory} (hs : src ≤ lo)
    (h : Memory.wfFrom lo hi m = true) (a : Nat) :
    Memory.read (m.map fun c => (c.1 - src + dst, c.2)) a
      = if dst ≤ a then m.read (a - dst + src) else 0 := by
  induction m generalizing lo with
  | nil => simp
  | cons c m ih =>
    obtain ⟨k, v⟩ := c
    rw [Memory.wfFrom_cons] at h
    rw [List.map_cons, Memory.read_cons, Memory.read_cons, ih (by omega) h.2.2.2]
    by_cases hd : dst ≤ a
    · rw [if_pos hd, if_pos hd]
      by_cases hk : k - src + dst = a
      · rw [if_pos hk, if_pos (by omega)]
      · rw [if_neg hk, if_neg (by omega)]
    · rw [if_neg hd, if_neg hd, if_neg (by omega)]

/-- What a read gives after a range is zeroed. -/
theorem Memory.read_zeroRange {lo hi : Nat} {m : Memory} (base n : Nat) (h : Memory.wfFrom lo hi m = true)
    (a : Nat) : (m.zeroRange base n).read a = if base ≤ a ∧ a < base + n then 0 else m.read a := by
  have hb := Memory.wfFrom_mono (hi' := base) le_rfl (by omega) (Memory.below_wf base h)
  have ha := Memory.wfFrom_mono (lo' := base) (by omega) le_rfl (Memory.above_wf (base + n) h)
  rw [Memory.zeroRange, Memory.read_append hb ha, Memory.read_below, Memory.read_above]
  by_cases h1 : a < base
  · rw [if_pos h1, if_pos h1, if_neg (by omega)]
  · rw [if_neg h1]
    by_cases h2 : base + n ≤ a
    · rw [if_pos h2, if_neg (by omega)]
    · rw [if_neg h2, if_pos (by omega)]

/-- What a read gives after bytes are placed. -/
theorem Memory.read_place {lo hi : Nat} {m : Memory} (base : Nat) (bs : List Byte)
    (h : Memory.wfFrom lo hi m = true) (a : Nat) :
    (m.place base bs).read a
      = if base ≤ a ∧ a < base + bs.length then bs.getD (a - base) 0 else m.read a := by
  have hb := Memory.wfFrom_mono (hi' := base) le_rfl (by omega) (Memory.below_wf base h)
  have hm := Memory.ofBytes_wf base bs
  have ha := Memory.wfFrom_mono (lo' := base + bs.length) (hi' := base + bs.length + hi) (by omega) (by omega)
    (Memory.above_wf (base + bs.length) h)
  have htail := Memory.wfFrom_append (by omega) (by omega) hm ha
  rw [Memory.place, Memory.read_append hb htail, Memory.read_append hm ha, Memory.read_below,
    Memory.read_above, Memory.read_ofBytes]
  by_cases h1 : a < base
  · rw [if_pos h1, if_pos h1, if_neg (by omega)]
  · by_cases h2 : a < base + bs.length
    · rw [if_neg h1, if_pos h2, if_pos (by omega), if_pos (by omega)]
    · rw [if_neg h1, if_neg h2, if_pos (by omega), if_neg (by omega)]

/-- What a read gives after a range is copied. -/
theorem Memory.read_copyRange {lo hi : Nat} {m : Memory} (src dst n : Nat)
    (h : Memory.wfFrom lo hi m = true) (a : Nat) :
    (m.copyRange src dst n).read a
      = if dst ≤ a ∧ a < dst + n then m.read (a - dst + src) else m.read a := by
  have hb := Memory.wfFrom_mono (hi' := dst) le_rfl (by omega) (Memory.below_wf dst h)
  have hs := Memory.wfFrom_mono (lo' := src) (hi' := src + n) (by omega) (by omega)
    (Memory.below_wf (src + n) (Memory.above_wf src h))
  have hm := Memory.wfFrom_mono (lo' := dst) (hi' := dst + n) (by omega) (by omega)
    (Memory.shift_wf (dst := dst) le_rfl hs)
  have ha := Memory.wfFrom_mono (lo' := dst + n) (hi' := dst + n + hi) (by omega) (by omega)
    (Memory.above_wf (dst + n) h)
  have htail := Memory.wfFrom_append (by omega) (by omega) hm ha
  rw [Memory.copyRange, Memory.read_append hb htail, Memory.read_append hm ha, Memory.read_below,
    Memory.read_above, Memory.read_shift le_rfl hs, Memory.read_below, Memory.read_above]
  by_cases h1 : a < dst
  · rw [if_pos h1, if_pos h1, if_neg (by omega)]
  · by_cases h2 : a < dst + n
    · rw [if_neg h1, if_pos h2, if_pos (by omega), if_pos (by omega), if_pos (by omega), if_pos (by omega)]
    · rw [if_neg h1, if_neg h2, if_pos (by omega), if_neg (by omega)]

/-- Bytes placed over a range just zeroed: the bytes, then zeros, inside the range, and the old bytes outside. -/
theorem Memory.read_place_zeroRange {size n : Nat} {m : Memory} {bs : List Byte} (base : Nat)
    (h : m.wf size = true) (hb : bs.length ≤ n) (a : Nat) :
    ((m.zeroRange base n).place base bs).read a
      = if base ≤ a ∧ a < base + n then bs.getD (a - base) 0 else m.read a := by
  rw [Memory.read_place base bs (Memory.zeroRange_wf base n h), Memory.read_zeroRange base n h]
  by_cases h1 : base ≤ a ∧ a < base + bs.length
  · rw [if_pos h1, if_pos (by omega)]
  · rw [if_neg h1]
    by_cases h2 : base ≤ a ∧ a < base + n
    · rw [if_pos h2, if_pos h2, List.getD_eq_getElem?_getD, List.getElem?_eq_none (by omega)]; rfl
    · rw [if_neg h2, if_neg h2]

end Sys2Proof.Machine
end

