-- ==== Sys2Proof/Laws/State.lean ====
section
/-! SUPPORT. One lemma per field per update of the state, so that no proof unfolds a record update. -/

namespace Sys2Proof.Machine

variable (s : State)

/-! ### `setPc` -/

@[simp] theorem State.setPc_pc (v : Word) : (s.setPc v).pc = v := rfl
@[simp] theorem State.setPc_sp (v : Word) : (s.setPc v).sp = s.sp := rfl
@[simp] theorem State.setPc_a (v : Word) : (s.setPc v).a = s.a := rfl
@[simp] theorem State.setPc_x (v : Word) : (s.setPc v).x = s.x := rfl
@[simp] theorem State.setPc_y (v : Word) : (s.setPc v).y = s.y := rfl
@[simp] theorem State.setPc_p (v : Word) : (s.setPc v).p = s.p := rfl
@[simp] theorem State.setPc_mem (v : Word) : (s.setPc v).mem = s.mem := rfl
@[simp] theorem State.setPc_vram (v : Word) : (s.setPc v).vram = s.vram := rfl
@[simp] theorem State.setPc_oam (v : Word) : (s.setPc v).oam = s.oam := rfl
@[simp] theorem State.setPc_pal (v : Word) : (s.setPc v).pal = s.pal := rfl
@[simp] theorem State.setPc_cycle (v : Word) : (s.setPc v).cycle = s.cycle := rfl
@[simp] theorem State.setPc_scanline (v : Word) : (s.setPc v).scanline = s.scanline := rfl
@[simp] theorem State.setPc_frame (v : Word) : (s.setPc v).frame = s.frame := rfl
@[simp] theorem State.setPc_loaded (v : Word) : (s.setPc v).loaded = s.loaded := rfl
@[simp] theorem State.setPc_remaining (v : Word) : (s.setPc v).remaining = s.remaining := rfl
@[simp] theorem State.setPc_config (v : Word) : (s.setPc v).config = s.config := rfl
@[simp] theorem State.setPc_pending (v : Word) : (s.setPc v).pending = s.pending := rfl
@[simp] theorem State.setPc_inputs (v : Word) : (s.setPc v).inputs = s.inputs := rfl
@[simp] theorem State.setPc_polls (v : Word) : (s.setPc v).polls = s.polls := rfl
@[simp] theorem State.setPc_outputs (v : Word) : (s.setPc v).outputs = s.outputs := rfl

/-! ### `storeByte` -/

@[simp] theorem State.storeByte_pc (addr : Nat) (v : Byte) : (s.storeByte addr v).pc = s.pc := rfl
@[simp] theorem State.storeByte_sp (addr : Nat) (v : Byte) : (s.storeByte addr v).sp = s.sp := rfl
@[simp] theorem State.storeByte_a (addr : Nat) (v : Byte) : (s.storeByte addr v).a = s.a := rfl
@[simp] theorem State.storeByte_x (addr : Nat) (v : Byte) : (s.storeByte addr v).x = s.x := rfl
@[simp] theorem State.storeByte_y (addr : Nat) (v : Byte) : (s.storeByte addr v).y = s.y := rfl
@[simp] theorem State.storeByte_p (addr : Nat) (v : Byte) : (s.storeByte addr v).p = s.p := rfl
@[simp] theorem State.storeByte_mem (addr : Nat) (v : Byte) : (s.storeByte addr v).mem = s.mem.write addr v := rfl
@[simp] theorem State.storeByte_vram (addr : Nat) (v : Byte) : (s.storeByte addr v).vram = s.vram := rfl
@[simp] theorem State.storeByte_oam (addr : Nat) (v : Byte) : (s.storeByte addr v).oam = s.oam := rfl
@[simp] theorem State.storeByte_pal (addr : Nat) (v : Byte) : (s.storeByte addr v).pal = s.pal := rfl
@[simp] theorem State.storeByte_cycle (addr : Nat) (v : Byte) : (s.storeByte addr v).cycle = s.cycle := rfl
@[simp] theorem State.storeByte_scanline (addr : Nat) (v : Byte) : (s.storeByte addr v).scanline = s.scanline := rfl
@[simp] theorem State.storeByte_frame (addr : Nat) (v : Byte) : (s.storeByte addr v).frame = s.frame := rfl
@[simp] theorem State.storeByte_loaded (addr : Nat) (v : Byte) : (s.storeByte addr v).loaded = s.loaded := rfl
@[simp] theorem State.storeByte_remaining (addr : Nat) (v : Byte) : (s.storeByte addr v).remaining = s.remaining := rfl
@[simp] theorem State.storeByte_config (addr : Nat) (v : Byte) : (s.storeByte addr v).config = s.config := rfl
@[simp] theorem State.storeByte_pending (addr : Nat) (v : Byte) : (s.storeByte addr v).pending = s.pending := rfl
@[simp] theorem State.storeByte_inputs (addr : Nat) (v : Byte) : (s.storeByte addr v).inputs = s.inputs := rfl
@[simp] theorem State.storeByte_polls (addr : Nat) (v : Byte) : (s.storeByte addr v).polls = s.polls := rfl
@[simp] theorem State.storeByte_outputs (addr : Nat) (v : Byte) : (s.storeByte addr v).outputs = s.outputs := rfl

/-! ### `emit` -/

@[simp] theorem State.emit_pc (o : Output) : (s.emit o).pc = s.pc := rfl
@[simp] theorem State.emit_sp (o : Output) : (s.emit o).sp = s.sp := rfl
@[simp] theorem State.emit_a (o : Output) : (s.emit o).a = s.a := rfl
@[simp] theorem State.emit_x (o : Output) : (s.emit o).x = s.x := rfl
@[simp] theorem State.emit_y (o : Output) : (s.emit o).y = s.y := rfl
@[simp] theorem State.emit_p (o : Output) : (s.emit o).p = s.p := rfl
@[simp] theorem State.emit_mem (o : Output) : (s.emit o).mem = s.mem := rfl
@[simp] theorem State.emit_vram (o : Output) : (s.emit o).vram = s.vram := rfl
@[simp] theorem State.emit_oam (o : Output) : (s.emit o).oam = s.oam := rfl
@[simp] theorem State.emit_pal (o : Output) : (s.emit o).pal = s.pal := rfl
@[simp] theorem State.emit_cycle (o : Output) : (s.emit o).cycle = s.cycle := rfl
@[simp] theorem State.emit_scanline (o : Output) : (s.emit o).scanline = s.scanline := rfl
@[simp] theorem State.emit_frame (o : Output) : (s.emit o).frame = s.frame := rfl
@[simp] theorem State.emit_loaded (o : Output) : (s.emit o).loaded = s.loaded := rfl
@[simp] theorem State.emit_remaining (o : Output) : (s.emit o).remaining = s.remaining := rfl
@[simp] theorem State.emit_config (o : Output) : (s.emit o).config = s.config := rfl
@[simp] theorem State.emit_pending (o : Output) : (s.emit o).pending = s.pending := rfl
@[simp] theorem State.emit_inputs (o : Output) : (s.emit o).inputs = s.inputs := rfl
@[simp] theorem State.emit_polls (o : Output) : (s.emit o).polls = s.polls := rfl
@[simp] theorem State.emit_outputs (o : Output) : (s.emit o).outputs = o :: s.outputs := rfl

/-! ### `setCounters` -/

@[simp] theorem State.setCounters_pc (c l f : Nat) : (s.setCounters c l f).pc = s.pc := rfl
@[simp] theorem State.setCounters_sp (c l f : Nat) : (s.setCounters c l f).sp = s.sp := rfl
@[simp] theorem State.setCounters_a (c l f : Nat) : (s.setCounters c l f).a = s.a := rfl
@[simp] theorem State.setCounters_x (c l f : Nat) : (s.setCounters c l f).x = s.x := rfl
@[simp] theorem State.setCounters_y (c l f : Nat) : (s.setCounters c l f).y = s.y := rfl
@[simp] theorem State.setCounters_p (c l f : Nat) : (s.setCounters c l f).p = s.p := rfl
@[simp] theorem State.setCounters_mem (c l f : Nat) : (s.setCounters c l f).mem = s.mem := rfl
@[simp] theorem State.setCounters_vram (c l f : Nat) : (s.setCounters c l f).vram = s.vram := rfl
@[simp] theorem State.setCounters_oam (c l f : Nat) : (s.setCounters c l f).oam = s.oam := rfl
@[simp] theorem State.setCounters_pal (c l f : Nat) : (s.setCounters c l f).pal = s.pal := rfl
@[simp] theorem State.setCounters_cycle (c l f : Nat) : (s.setCounters c l f).cycle = c := rfl
@[simp] theorem State.setCounters_scanline (c l f : Nat) : (s.setCounters c l f).scanline = l := rfl
@[simp] theorem State.setCounters_frame (c l f : Nat) : (s.setCounters c l f).frame = f := rfl
@[simp] theorem State.setCounters_loaded (c l f : Nat) : (s.setCounters c l f).loaded = s.loaded := rfl
@[simp] theorem State.setCounters_remaining (c l f : Nat) : (s.setCounters c l f).remaining = s.remaining := rfl
@[simp] theorem State.setCounters_config (c l f : Nat) : (s.setCounters c l f).config = s.config := rfl
@[simp] theorem State.setCounters_pending (c l f : Nat) : (s.setCounters c l f).pending = s.pending := rfl
@[simp] theorem State.setCounters_inputs (c l f : Nat) : (s.setCounters c l f).inputs = s.inputs := rfl
@[simp] theorem State.setCounters_polls (c l f : Nat) : (s.setCounters c l f).polls = s.polls := rfl
@[simp] theorem State.setCounters_outputs (c l f : Nat) : (s.setCounters c l f).outputs = s.outputs := rfl

/-! ### `finishStep` -/

@[simp] theorem State.finishStep_pc (npc : Nat) : (s.finishStep npc).pc = wrapPc npc := rfl
@[simp] theorem State.finishStep_sp (npc : Nat) : (s.finishStep npc).sp = s.sp := rfl
@[simp] theorem State.finishStep_a (npc : Nat) : (s.finishStep npc).a = s.a := rfl
@[simp] theorem State.finishStep_x (npc : Nat) : (s.finishStep npc).x = s.x := rfl
@[simp] theorem State.finishStep_y (npc : Nat) : (s.finishStep npc).y = s.y := rfl
@[simp] theorem State.finishStep_p (npc : Nat) : (s.finishStep npc).p = s.p := rfl
@[simp] theorem State.finishStep_mem (npc : Nat) : (s.finishStep npc).mem = s.mem := rfl
@[simp] theorem State.finishStep_vram (npc : Nat) : (s.finishStep npc).vram = s.vram := rfl
@[simp] theorem State.finishStep_oam (npc : Nat) : (s.finishStep npc).oam = s.oam := rfl
@[simp] theorem State.finishStep_pal (npc : Nat) : (s.finishStep npc).pal = s.pal := rfl
@[simp] theorem State.finishStep_cycle (npc : Nat) : (s.finishStep npc).cycle = s.cycle := rfl
@[simp] theorem State.finishStep_scanline (npc : Nat) : (s.finishStep npc).scanline = s.scanline := rfl
@[simp] theorem State.finishStep_frame (npc : Nat) : (s.finishStep npc).frame = s.frame := rfl
@[simp] theorem State.finishStep_loaded (npc : Nat) : (s.finishStep npc).loaded = s.loaded := rfl
@[simp] theorem State.finishStep_remaining (npc : Nat) : (s.finishStep npc).remaining = s.remaining := rfl
@[simp] theorem State.finishStep_config (npc : Nat) : (s.finishStep npc).config = s.config := rfl
@[simp] theorem State.finishStep_pending (npc : Nat) : (s.finishStep npc).pending = s.pending := rfl
@[simp] theorem State.finishStep_inputs (npc : Nat) : (s.finishStep npc).inputs = s.inputs := rfl
@[simp] theorem State.finishStep_polls (npc : Nat) : (s.finishStep npc).polls = s.polls := rfl
@[simp] theorem State.finishStep_outputs (npc : Nat) : (s.finishStep npc).outputs = s.outputs := rfl

/-! ### `produceFramebuffer` -/

@[simp] theorem State.produceFramebuffer_pc : s.produceFramebuffer.pc = s.pc := rfl
@[simp] theorem State.produceFramebuffer_sp : s.produceFramebuffer.sp = s.sp := rfl
@[simp] theorem State.produceFramebuffer_a : s.produceFramebuffer.a = s.a := rfl
@[simp] theorem State.produceFramebuffer_x : s.produceFramebuffer.x = s.x := rfl
@[simp] theorem State.produceFramebuffer_y : s.produceFramebuffer.y = s.y := rfl
@[simp] theorem State.produceFramebuffer_p : s.produceFramebuffer.p = s.p := rfl
@[simp] theorem State.produceFramebuffer_mem : s.produceFramebuffer.mem = s.mem := rfl
@[simp] theorem State.produceFramebuffer_vram : s.produceFramebuffer.vram = s.vram := rfl
@[simp] theorem State.produceFramebuffer_oam : s.produceFramebuffer.oam = s.oam := rfl
@[simp] theorem State.produceFramebuffer_pal : s.produceFramebuffer.pal = s.pal := rfl
@[simp] theorem State.produceFramebuffer_cycle : s.produceFramebuffer.cycle = s.cycle := rfl
@[simp] theorem State.produceFramebuffer_scanline : s.produceFramebuffer.scanline = s.scanline := rfl
@[simp] theorem State.produceFramebuffer_frame : s.produceFramebuffer.frame = s.frame := rfl
@[simp] theorem State.produceFramebuffer_loaded : s.produceFramebuffer.loaded = s.loaded := rfl
@[simp] theorem State.produceFramebuffer_remaining : s.produceFramebuffer.remaining = s.remaining := rfl
@[simp] theorem State.produceFramebuffer_config : s.produceFramebuffer.config = s.config := rfl
@[simp] theorem State.produceFramebuffer_pending : s.produceFramebuffer.pending = s.pending := rfl
@[simp] theorem State.produceFramebuffer_inputs : s.produceFramebuffer.inputs = s.inputs := rfl
@[simp] theorem State.produceFramebuffer_polls : s.produceFramebuffer.polls = s.polls := rfl
@[simp] theorem State.produceFramebuffer_outputs : s.produceFramebuffer.outputs = .renderFrame (framebuffer s.mem s.frame) :: s.outputs := rfl

/-! ### `countPoll` -/

@[simp] theorem State.countPoll_pc : s.countPoll.pc = s.pc := rfl
@[simp] theorem State.countPoll_sp : s.countPoll.sp = s.sp := rfl
@[simp] theorem State.countPoll_a : s.countPoll.a = s.a := rfl
@[simp] theorem State.countPoll_x : s.countPoll.x = s.x := rfl
@[simp] theorem State.countPoll_y : s.countPoll.y = s.y := rfl
@[simp] theorem State.countPoll_p : s.countPoll.p = s.p := rfl
@[simp] theorem State.countPoll_mem : s.countPoll.mem = s.mem := rfl
@[simp] theorem State.countPoll_vram : s.countPoll.vram = s.vram := rfl
@[simp] theorem State.countPoll_oam : s.countPoll.oam = s.oam := rfl
@[simp] theorem State.countPoll_pal : s.countPoll.pal = s.pal := rfl
@[simp] theorem State.countPoll_cycle : s.countPoll.cycle = s.cycle := rfl
@[simp] theorem State.countPoll_scanline : s.countPoll.scanline = s.scanline := rfl
@[simp] theorem State.countPoll_frame : s.countPoll.frame = s.frame := rfl
@[simp] theorem State.countPoll_loaded : s.countPoll.loaded = s.loaded := rfl
@[simp] theorem State.countPoll_remaining : s.countPoll.remaining = s.remaining := rfl
@[simp] theorem State.countPoll_config : s.countPoll.config = s.config := rfl
@[simp] theorem State.countPoll_pending : s.countPoll.pending = s.pending := rfl
@[simp] theorem State.countPoll_inputs : s.countPoll.inputs = s.inputs.tail := rfl
@[simp] theorem State.countPoll_polls : s.countPoll.polls = s.polls + 1 := rfl
@[simp] theorem State.countPoll_outputs : s.countPoll.outputs = s.outputs := rfl

/-! ### `inputStep` -/

@[simp] theorem State.inputStep_pc : s.inputStep.pc = s.pc := rfl
@[simp] theorem State.inputStep_sp : s.inputStep.sp = s.sp := rfl
@[simp] theorem State.inputStep_a : s.inputStep.a = s.a := rfl
@[simp] theorem State.inputStep_x : s.inputStep.x = s.x := rfl
@[simp] theorem State.inputStep_y : s.inputStep.y = s.y := rfl
@[simp] theorem State.inputStep_p : s.inputStep.p = s.p := rfl
@[simp] theorem State.inputStep_mem : s.inputStep.mem = s.mem.write s.inputAddr s.inputByte := rfl
@[simp] theorem State.inputStep_vram : s.inputStep.vram = s.vram := rfl
@[simp] theorem State.inputStep_oam : s.inputStep.oam = s.oam := rfl
@[simp] theorem State.inputStep_pal : s.inputStep.pal = s.pal := rfl
@[simp] theorem State.inputStep_cycle : s.inputStep.cycle = s.cycle := rfl
@[simp] theorem State.inputStep_scanline : s.inputStep.scanline = s.scanline := rfl
@[simp] theorem State.inputStep_frame : s.inputStep.frame = s.frame := rfl
@[simp] theorem State.inputStep_loaded : s.inputStep.loaded = s.loaded := rfl
@[simp] theorem State.inputStep_remaining : s.inputStep.remaining = s.remaining := rfl
@[simp] theorem State.inputStep_config : s.inputStep.config = s.config := rfl
@[simp] theorem State.inputStep_pending : s.inputStep.pending = s.pending := rfl
@[simp] theorem State.inputStep_inputs : s.inputStep.inputs = s.inputs.tail := rfl
@[simp] theorem State.inputStep_polls : s.inputStep.polls = s.polls + 1 := rfl
@[simp] theorem State.inputStep_outputs : s.inputStep.outputs = s.outputs := rfl

/-! ### `countIteration` -/

@[simp] theorem State.countIteration_pc : s.countIteration.pc = s.pc := rfl
@[simp] theorem State.countIteration_sp : s.countIteration.sp = s.sp := rfl
@[simp] theorem State.countIteration_a : s.countIteration.a = s.a := rfl
@[simp] theorem State.countIteration_x : s.countIteration.x = s.x := rfl
@[simp] theorem State.countIteration_y : s.countIteration.y = s.y := rfl
@[simp] theorem State.countIteration_p : s.countIteration.p = s.p := rfl
@[simp] theorem State.countIteration_mem : s.countIteration.mem = s.mem := rfl
@[simp] theorem State.countIteration_vram : s.countIteration.vram = s.vram := rfl
@[simp] theorem State.countIteration_oam : s.countIteration.oam = s.oam := rfl
@[simp] theorem State.countIteration_pal : s.countIteration.pal = s.pal := rfl
@[simp] theorem State.countIteration_cycle : s.countIteration.cycle = s.cycle := rfl
@[simp] theorem State.countIteration_scanline : s.countIteration.scanline = s.scanline := rfl
@[simp] theorem State.countIteration_frame : s.countIteration.frame = s.frame := rfl
@[simp] theorem State.countIteration_loaded : s.countIteration.loaded = s.loaded := rfl
@[simp] theorem State.countIteration_remaining : s.countIteration.remaining = s.remaining - 1 := rfl
@[simp] theorem State.countIteration_config : s.countIteration.config = s.config := rfl
@[simp] theorem State.countIteration_pending : s.countIteration.pending = s.pending := rfl
@[simp] theorem State.countIteration_inputs : s.countIteration.inputs = s.inputs := rfl
@[simp] theorem State.countIteration_polls : s.countIteration.polls = s.polls := rfl
@[simp] theorem State.countIteration_outputs : s.countIteration.outputs = s.outputs := rfl

/-! ### `takeOp` -/

@[simp] theorem State.takeOp_pc : s.takeOp.pc = s.pc := rfl
@[simp] theorem State.takeOp_sp : s.takeOp.sp = s.sp := rfl
@[simp] theorem State.takeOp_a : s.takeOp.a = s.a := rfl
@[simp] theorem State.takeOp_x : s.takeOp.x = s.x := rfl
@[simp] theorem State.takeOp_y : s.takeOp.y = s.y := rfl
@[simp] theorem State.takeOp_p : s.takeOp.p = s.p := rfl
@[simp] theorem State.takeOp_mem : s.takeOp.mem = s.mem := rfl
@[simp] theorem State.takeOp_vram : s.takeOp.vram = s.vram := rfl
@[simp] theorem State.takeOp_oam : s.takeOp.oam = s.oam := rfl
@[simp] theorem State.takeOp_pal : s.takeOp.pal = s.pal := rfl
@[simp] theorem State.takeOp_cycle : s.takeOp.cycle = s.cycle := rfl
@[simp] theorem State.takeOp_scanline : s.takeOp.scanline = s.scanline := rfl
@[simp] theorem State.takeOp_frame : s.takeOp.frame = s.frame := rfl
@[simp] theorem State.takeOp_loaded : s.takeOp.loaded = s.loaded := rfl
@[simp] theorem State.takeOp_remaining : s.takeOp.remaining = s.remaining := rfl
@[simp] theorem State.takeOp_config : s.takeOp.config = s.config := rfl
@[simp] theorem State.takeOp_pending : s.takeOp.pending = s.pending.tail := rfl
@[simp] theorem State.takeOp_inputs : s.takeOp.inputs = s.inputs := rfl
@[simp] theorem State.takeOp_polls : s.takeOp.polls = s.polls := rfl
@[simp] theorem State.takeOp_outputs : s.takeOp.outputs = s.outputs := rfl

/-! ### `markLoaded` -/

@[simp] theorem State.markLoaded_pc : s.markLoaded.pc = s.pc := rfl
@[simp] theorem State.markLoaded_sp : s.markLoaded.sp = s.sp := rfl
@[simp] theorem State.markLoaded_a : s.markLoaded.a = s.a := rfl
@[simp] theorem State.markLoaded_x : s.markLoaded.x = s.x := rfl
@[simp] theorem State.markLoaded_y : s.markLoaded.y = s.y := rfl
@[simp] theorem State.markLoaded_p : s.markLoaded.p = s.p := rfl
@[simp] theorem State.markLoaded_mem : s.markLoaded.mem = s.mem := rfl
@[simp] theorem State.markLoaded_vram : s.markLoaded.vram = s.vram := rfl
@[simp] theorem State.markLoaded_oam : s.markLoaded.oam = s.oam := rfl
@[simp] theorem State.markLoaded_pal : s.markLoaded.pal = s.pal := rfl
@[simp] theorem State.markLoaded_cycle : s.markLoaded.cycle = s.cycle := rfl
@[simp] theorem State.markLoaded_scanline : s.markLoaded.scanline = s.scanline := rfl
@[simp] theorem State.markLoaded_frame : s.markLoaded.frame = s.frame := rfl
@[simp] theorem State.markLoaded_loaded : s.markLoaded.loaded = true := rfl
@[simp] theorem State.markLoaded_remaining : s.markLoaded.remaining = s.remaining := rfl
@[simp] theorem State.markLoaded_config : s.markLoaded.config = s.config := rfl
@[simp] theorem State.markLoaded_pending : s.markLoaded.pending = s.pending := rfl
@[simp] theorem State.markLoaded_inputs : s.markLoaded.inputs = s.inputs := rfl
@[simp] theorem State.markLoaded_polls : s.markLoaded.polls = s.polls := rfl
@[simp] theorem State.markLoaded_outputs : s.markLoaded.outputs = s.outputs := rfl

/-! ### `resetEngine` -/

@[simp] theorem State.resetEngine_pc : s.resetEngine.pc = s.resetPc := rfl
@[simp] theorem State.resetEngine_sp : s.resetEngine.sp = 0xFF := rfl
@[simp] theorem State.resetEngine_a : s.resetEngine.a = 0 := rfl
@[simp] theorem State.resetEngine_x : s.resetEngine.x = 0 := rfl
@[simp] theorem State.resetEngine_y : s.resetEngine.y = 0 := rfl
@[simp] theorem State.resetEngine_p : s.resetEngine.p = 0x24 := rfl
@[simp] theorem State.resetEngine_mem : s.resetEngine.mem = s.mem := rfl
@[simp] theorem State.resetEngine_vram : s.resetEngine.vram = s.vram := rfl
@[simp] theorem State.resetEngine_oam : s.resetEngine.oam = s.oam := rfl
@[simp] theorem State.resetEngine_pal : s.resetEngine.pal = s.pal := rfl
@[simp] theorem State.resetEngine_cycle : s.resetEngine.cycle = 0 := rfl
@[simp] theorem State.resetEngine_scanline : s.resetEngine.scanline = 0 := rfl
@[simp] theorem State.resetEngine_frame : s.resetEngine.frame = 0 := rfl
@[simp] theorem State.resetEngine_loaded : s.resetEngine.loaded = s.loaded := rfl
@[simp] theorem State.resetEngine_remaining : s.resetEngine.remaining = s.remaining := rfl
@[simp] theorem State.resetEngine_config : s.resetEngine.config = s.config := rfl
@[simp] theorem State.resetEngine_pending : s.resetEngine.pending = s.pending := rfl
@[simp] theorem State.resetEngine_inputs : s.resetEngine.inputs = s.inputs := rfl
@[simp] theorem State.resetEngine_polls : s.resetEngine.polls = s.polls := rfl
@[simp] theorem State.resetEngine_outputs : s.resetEngine.outputs = s.outputs := rfl

/-! ### `clearRegions` -/

@[simp] theorem State.clearRegions_pc : s.clearRegions.pc = s.pc := rfl
@[simp] theorem State.clearRegions_sp : s.clearRegions.sp = s.sp := rfl
@[simp] theorem State.clearRegions_a : s.clearRegions.a = s.a := rfl
@[simp] theorem State.clearRegions_x : s.clearRegions.x = s.x := rfl
@[simp] theorem State.clearRegions_y : s.clearRegions.y = s.y := rfl
@[simp] theorem State.clearRegions_p : s.clearRegions.p = s.p := rfl
@[simp] theorem State.clearRegions_mem : s.clearRegions.mem = s.mem.zeroRange romBase prgCap := rfl
@[simp] theorem State.clearRegions_vram : s.clearRegions.vram = s.vram.zeroRange 0 vramSize := rfl
@[simp] theorem State.clearRegions_oam : s.clearRegions.oam = s.oam := rfl
@[simp] theorem State.clearRegions_pal : s.clearRegions.pal = s.pal := rfl
@[simp] theorem State.clearRegions_cycle : s.clearRegions.cycle = s.cycle := rfl
@[simp] theorem State.clearRegions_scanline : s.clearRegions.scanline = s.scanline := rfl
@[simp] theorem State.clearRegions_frame : s.clearRegions.frame = s.frame := rfl
@[simp] theorem State.clearRegions_loaded : s.clearRegions.loaded = s.loaded := rfl
@[simp] theorem State.clearRegions_remaining : s.clearRegions.remaining = s.remaining := rfl
@[simp] theorem State.clearRegions_config : s.clearRegions.config = s.config := rfl
@[simp] theorem State.clearRegions_pending : s.clearRegions.pending = s.pending := rfl
@[simp] theorem State.clearRegions_inputs : s.clearRegions.inputs = s.inputs := rfl
@[simp] theorem State.clearRegions_polls : s.clearRegions.polls = s.polls := rfl
@[simp] theorem State.clearRegions_outputs : s.clearRegions.outputs = s.outputs := rfl

/-! ### `copyProgram` -/

@[simp] theorem State.copyProgram_pc (img : List Byte) : (s.copyProgram img).pc = s.pc := rfl
@[simp] theorem State.copyProgram_sp (img : List Byte) : (s.copyProgram img).sp = s.sp := rfl
@[simp] theorem State.copyProgram_a (img : List Byte) : (s.copyProgram img).a = s.a := rfl
@[simp] theorem State.copyProgram_x (img : List Byte) : (s.copyProgram img).x = s.x := rfl
@[simp] theorem State.copyProgram_y (img : List Byte) : (s.copyProgram img).y = s.y := rfl
@[simp] theorem State.copyProgram_p (img : List Byte) : (s.copyProgram img).p = s.p := rfl
@[simp] theorem State.copyProgram_mem (img : List Byte) : (s.copyProgram img).mem = s.mem.place romBase (imageSlice img headerLen (prgCount img)) := rfl
@[simp] theorem State.copyProgram_vram (img : List Byte) : (s.copyProgram img).vram = s.vram := rfl
@[simp] theorem State.copyProgram_oam (img : List Byte) : (s.copyProgram img).oam = s.oam := rfl
@[simp] theorem State.copyProgram_pal (img : List Byte) : (s.copyProgram img).pal = s.pal := rfl
@[simp] theorem State.copyProgram_cycle (img : List Byte) : (s.copyProgram img).cycle = s.cycle := rfl
@[simp] theorem State.copyProgram_scanline (img : List Byte) : (s.copyProgram img).scanline = s.scanline := rfl
@[simp] theorem State.copyProgram_frame (img : List Byte) : (s.copyProgram img).frame = s.frame := rfl
@[simp] theorem State.copyProgram_loaded (img : List Byte) : (s.copyProgram img).loaded = s.loaded := rfl
@[simp] theorem State.copyProgram_remaining (img : List Byte) : (s.copyProgram img).remaining = s.remaining := rfl
@[simp] theorem State.copyProgram_config (img : List Byte) : (s.copyProgram img).config = s.config := rfl
@[simp] theorem State.copyProgram_pending (img : List Byte) : (s.copyProgram img).pending = s.pending := rfl
@[simp] theorem State.copyProgram_inputs (img : List Byte) : (s.copyProgram img).inputs = s.inputs := rfl
@[simp] theorem State.copyProgram_polls (img : List Byte) : (s.copyProgram img).polls = s.polls := rfl
@[simp] theorem State.copyProgram_outputs (img : List Byte) : (s.copyProgram img).outputs = s.outputs := rfl

/-! ### `copyGraphics` -/

@[simp] theorem State.copyGraphics_pc (img : List Byte) : (s.copyGraphics img).pc = s.pc := rfl
@[simp] theorem State.copyGraphics_sp (img : List Byte) : (s.copyGraphics img).sp = s.sp := rfl
@[simp] theorem State.copyGraphics_a (img : List Byte) : (s.copyGraphics img).a = s.a := rfl
@[simp] theorem State.copyGraphics_x (img : List Byte) : (s.copyGraphics img).x = s.x := rfl
@[simp] theorem State.copyGraphics_y (img : List Byte) : (s.copyGraphics img).y = s.y := rfl
@[simp] theorem State.copyGraphics_p (img : List Byte) : (s.copyGraphics img).p = s.p := rfl
@[simp] theorem State.copyGraphics_mem (img : List Byte) : (s.copyGraphics img).mem = s.mem := rfl
@[simp] theorem State.copyGraphics_vram (img : List Byte) : (s.copyGraphics img).vram = s.vram.place 0 (imageSlice img (chrOffset img) (chrCount img)) := rfl
@[simp] theorem State.copyGraphics_oam (img : List Byte) : (s.copyGraphics img).oam = s.oam := rfl
@[simp] theorem State.copyGraphics_pal (img : List Byte) : (s.copyGraphics img).pal = s.pal := rfl
@[simp] theorem State.copyGraphics_cycle (img : List Byte) : (s.copyGraphics img).cycle = s.cycle := rfl
@[simp] theorem State.copyGraphics_scanline (img : List Byte) : (s.copyGraphics img).scanline = s.scanline := rfl
@[simp] theorem State.copyGraphics_frame (img : List Byte) : (s.copyGraphics img).frame = s.frame := rfl
@[simp] theorem State.copyGraphics_loaded (img : List Byte) : (s.copyGraphics img).loaded = s.loaded := rfl
@[simp] theorem State.copyGraphics_remaining (img : List Byte) : (s.copyGraphics img).remaining = s.remaining := rfl
@[simp] theorem State.copyGraphics_config (img : List Byte) : (s.copyGraphics img).config = s.config := rfl
@[simp] theorem State.copyGraphics_pending (img : List Byte) : (s.copyGraphics img).pending = s.pending := rfl
@[simp] theorem State.copyGraphics_inputs (img : List Byte) : (s.copyGraphics img).inputs = s.inputs := rfl
@[simp] theorem State.copyGraphics_polls (img : List Byte) : (s.copyGraphics img).polls = s.polls := rfl
@[simp] theorem State.copyGraphics_outputs (img : List Byte) : (s.copyGraphics img).outputs = s.outputs := rfl

/-! ### `copyGeneric` -/

@[simp] theorem State.copyGeneric_pc (img : List Byte) : (s.copyGeneric img).pc = s.pc := rfl
@[simp] theorem State.copyGeneric_sp (img : List Byte) : (s.copyGeneric img).sp = s.sp := rfl
@[simp] theorem State.copyGeneric_a (img : List Byte) : (s.copyGeneric img).a = s.a := rfl
@[simp] theorem State.copyGeneric_x (img : List Byte) : (s.copyGeneric img).x = s.x := rfl
@[simp] theorem State.copyGeneric_y (img : List Byte) : (s.copyGeneric img).y = s.y := rfl
@[simp] theorem State.copyGeneric_p (img : List Byte) : (s.copyGeneric img).p = s.p := rfl
@[simp] theorem State.copyGeneric_mem (img : List Byte) : (s.copyGeneric img).mem = s.mem.place romBase (imageSlice img 0 (genericCount img)) := rfl
@[simp] theorem State.copyGeneric_vram (img : List Byte) : (s.copyGeneric img).vram = s.vram := rfl
@[simp] theorem State.copyGeneric_oam (img : List Byte) : (s.copyGeneric img).oam = s.oam := rfl
@[simp] theorem State.copyGeneric_pal (img : List Byte) : (s.copyGeneric img).pal = s.pal := rfl
@[simp] theorem State.copyGeneric_cycle (img : List Byte) : (s.copyGeneric img).cycle = s.cycle := rfl
@[simp] theorem State.copyGeneric_scanline (img : List Byte) : (s.copyGeneric img).scanline = s.scanline := rfl
@[simp] theorem State.copyGeneric_frame (img : List Byte) : (s.copyGeneric img).frame = s.frame := rfl
@[simp] theorem State.copyGeneric_loaded (img : List Byte) : (s.copyGeneric img).loaded = s.loaded := rfl
@[simp] theorem State.copyGeneric_remaining (img : List Byte) : (s.copyGeneric img).remaining = s.remaining := rfl
@[simp] theorem State.copyGeneric_config (img : List Byte) : (s.copyGeneric img).config = s.config := rfl
@[simp] theorem State.copyGeneric_pending (img : List Byte) : (s.copyGeneric img).pending = s.pending := rfl
@[simp] theorem State.copyGeneric_inputs (img : List Byte) : (s.copyGeneric img).inputs = s.inputs := rfl
@[simp] theorem State.copyGeneric_polls (img : List Byte) : (s.copyGeneric img).polls = s.polls := rfl
@[simp] theorem State.copyGeneric_outputs (img : List Byte) : (s.copyGeneric img).outputs = s.outputs := rfl

/-! ### `running` -/

@[simp] theorem State.running_pc : s.running.pc = s.pc := rfl
@[simp] theorem State.running_sp : s.running.sp = s.sp := rfl
@[simp] theorem State.running_a : s.running.a = s.a := rfl
@[simp] theorem State.running_x : s.running.x = s.x := rfl
@[simp] theorem State.running_y : s.running.y = s.y := rfl
@[simp] theorem State.running_p : s.running.p = s.p := rfl
@[simp] theorem State.running_mem : s.running.mem = s.mem := rfl
@[simp] theorem State.running_vram : s.running.vram = s.vram := rfl
@[simp] theorem State.running_oam : s.running.oam = s.oam := rfl
@[simp] theorem State.running_pal : s.running.pal = s.pal := rfl
@[simp] theorem State.running_cycle : s.running.cycle = s.cycle := rfl
@[simp] theorem State.running_scanline : s.running.scanline = s.scanline := rfl
@[simp] theorem State.running_frame : s.running.frame = s.frame := rfl
@[simp] theorem State.running_loaded : s.running.loaded = true := rfl
@[simp] theorem State.running_remaining : s.running.remaining = if s.remaining = 0 then iterPerRunFrame else s.remaining := rfl
@[simp] theorem State.running_config : s.running.config = s.config := rfl
@[simp] theorem State.running_pending : s.running.pending = s.pending := rfl
@[simp] theorem State.running_inputs : s.running.inputs = s.inputs := rfl
@[simp] theorem State.running_polls : s.running.polls = s.polls := rfl
@[simp] theorem State.running_outputs : s.running.outputs = s.outputs := rfl

/-! ### `storeInstr` -/

@[simp] theorem State.storeInstr_pc (b0 b1 b2 : Byte) : (s.storeInstr b0 b1 b2).pc = s.pc := rfl
@[simp] theorem State.storeInstr_sp (b0 b1 b2 : Byte) : (s.storeInstr b0 b1 b2).sp = s.sp := rfl
@[simp] theorem State.storeInstr_a (b0 b1 b2 : Byte) : (s.storeInstr b0 b1 b2).a = s.a := rfl
@[simp] theorem State.storeInstr_x (b0 b1 b2 : Byte) : (s.storeInstr b0 b1 b2).x = s.x := rfl
@[simp] theorem State.storeInstr_y (b0 b1 b2 : Byte) : (s.storeInstr b0 b1 b2).y = s.y := rfl
@[simp] theorem State.storeInstr_p (b0 b1 b2 : Byte) : (s.storeInstr b0 b1 b2).p = s.p := rfl
@[simp] theorem State.storeInstr_mem (b0 b1 b2 : Byte) : (s.storeInstr b0 b1 b2).mem = ((s.mem.write s.pc.toNat b0).write ((s.pc.toNat + 1) % memSize) b1).write ((s.pc.toNat + 2) % memSize) b2 := rfl
@[simp] theorem State.storeInstr_vram (b0 b1 b2 : Byte) : (s.storeInstr b0 b1 b2).vram = s.vram := rfl
@[simp] theorem State.storeInstr_oam (b0 b1 b2 : Byte) : (s.storeInstr b0 b1 b2).oam = s.oam := rfl
@[simp] theorem State.storeInstr_pal (b0 b1 b2 : Byte) : (s.storeInstr b0 b1 b2).pal = s.pal := rfl
@[simp] theorem State.storeInstr_cycle (b0 b1 b2 : Byte) : (s.storeInstr b0 b1 b2).cycle = s.cycle := rfl
@[simp] theorem State.storeInstr_scanline (b0 b1 b2 : Byte) : (s.storeInstr b0 b1 b2).scanline = s.scanline := rfl
@[simp] theorem State.storeInstr_frame (b0 b1 b2 : Byte) : (s.storeInstr b0 b1 b2).frame = s.frame := rfl
@[simp] theorem State.storeInstr_loaded (b0 b1 b2 : Byte) : (s.storeInstr b0 b1 b2).loaded = s.loaded := rfl
@[simp] theorem State.storeInstr_remaining (b0 b1 b2 : Byte) : (s.storeInstr b0 b1 b2).remaining = s.remaining := rfl
@[simp] theorem State.storeInstr_config (b0 b1 b2 : Byte) : (s.storeInstr b0 b1 b2).config = s.config := rfl
@[simp] theorem State.storeInstr_pending (b0 b1 b2 : Byte) : (s.storeInstr b0 b1 b2).pending = s.pending := rfl
@[simp] theorem State.storeInstr_inputs (b0 b1 b2 : Byte) : (s.storeInstr b0 b1 b2).inputs = s.inputs := rfl
@[simp] theorem State.storeInstr_polls (b0 b1 b2 : Byte) : (s.storeInstr b0 b1 b2).polls = s.polls := rfl
@[simp] theorem State.storeInstr_outputs (b0 b1 b2 : Byte) : (s.storeInstr b0 b1 b2).outputs = s.outputs := rfl

/-! ### `copyMirror` -/

@[simp] theorem State.copyMirror_pc (img : List Byte) : (s.copyMirror img).pc = s.pc := by
  unfold State.copyMirror; split <;> rfl
@[simp] theorem State.copyMirror_sp (img : List Byte) : (s.copyMirror img).sp = s.sp := by
  unfold State.copyMirror; split <;> rfl
@[simp] theorem State.copyMirror_a (img : List Byte) : (s.copyMirror img).a = s.a := by
  unfold State.copyMirror; split <;> rfl
@[simp] theorem State.copyMirror_x (img : List Byte) : (s.copyMirror img).x = s.x := by
  unfold State.copyMirror; split <;> rfl
@[simp] theorem State.copyMirror_y (img : List Byte) : (s.copyMirror img).y = s.y := by
  unfold State.copyMirror; split <;> rfl
@[simp] theorem State.copyMirror_p (img : List Byte) : (s.copyMirror img).p = s.p := by
  unfold State.copyMirror; split <;> rfl
@[simp] theorem State.copyMirror_mem (img : List Byte) : (s.copyMirror img).mem = if prgUnits img = 1 then s.mem.copyRange romBase mirrorBase prgUnit else s.mem := by
  unfold State.copyMirror; split <;> rfl
@[simp] theorem State.copyMirror_vram (img : List Byte) : (s.copyMirror img).vram = s.vram := by
  unfold State.copyMirror; split <;> rfl
@[simp] theorem State.copyMirror_oam (img : List Byte) : (s.copyMirror img).oam = s.oam := by
  unfold State.copyMirror; split <;> rfl
@[simp] theorem State.copyMirror_pal (img : List Byte) : (s.copyMirror img).pal = s.pal := by
  unfold State.copyMirror; split <;> rfl
@[simp] theorem State.copyMirror_cycle (img : List Byte) : (s.copyMirror img).cycle = s.cycle := by
  unfold State.copyMirror; split <;> rfl
@[simp] theorem State.copyMirror_scanline (img : List Byte) : (s.copyMirror img).scanline = s.scanline := by
  unfold State.copyMirror; split <;> rfl
@[simp] theorem State.copyMirror_frame (img : List Byte) : (s.copyMirror img).frame = s.frame := by
  unfold State.copyMirror; split <;> rfl
@[simp] theorem State.copyMirror_loaded (img : List Byte) : (s.copyMirror img).loaded = s.loaded := by
  unfold State.copyMirror; split <;> rfl
@[simp] theorem State.copyMirror_remaining (img : List Byte) : (s.copyMirror img).remaining = s.remaining := by
  unfold State.copyMirror; split <;> rfl
@[simp] theorem State.copyMirror_config (img : List Byte) : (s.copyMirror img).config = s.config := by
  unfold State.copyMirror; split <;> rfl
@[simp] theorem State.copyMirror_pending (img : List Byte) : (s.copyMirror img).pending = s.pending := by
  unfold State.copyMirror; split <;> rfl
@[simp] theorem State.copyMirror_inputs (img : List Byte) : (s.copyMirror img).inputs = s.inputs := by
  unfold State.copyMirror; split <;> rfl
@[simp] theorem State.copyMirror_polls (img : List Byte) : (s.copyMirror img).polls = s.polls := by
  unfold State.copyMirror; split <;> rfl
@[simp] theorem State.copyMirror_outputs (img : List Byte) : (s.copyMirror img).outputs = s.outputs := by
  unfold State.copyMirror; split <;> rfl

/-! ### `placeImage` -/

@[simp] theorem State.placeImage_pc (img : List Byte) : (s.placeImage img).pc = s.pc := by
  unfold State.placeImage; split <;> simp
@[simp] theorem State.placeImage_sp (img : List Byte) : (s.placeImage img).sp = s.sp := by
  unfold State.placeImage; split <;> simp
@[simp] theorem State.placeImage_a (img : List Byte) : (s.placeImage img).a = s.a := by
  unfold State.placeImage; split <;> simp
@[simp] theorem State.placeImage_x (img : List Byte) : (s.placeImage img).x = s.x := by
  unfold State.placeImage; split <;> simp
@[simp] theorem State.placeImage_y (img : List Byte) : (s.placeImage img).y = s.y := by
  unfold State.placeImage; split <;> simp
@[simp] theorem State.placeImage_p (img : List Byte) : (s.placeImage img).p = s.p := by
  unfold State.placeImage; split <;> simp
@[simp] theorem State.placeImage_oam (img : List Byte) : (s.placeImage img).oam = s.oam := by
  unfold State.placeImage; split <;> simp
@[simp] theorem State.placeImage_pal (img : List Byte) : (s.placeImage img).pal = s.pal := by
  unfold State.placeImage; split <;> simp
@[simp] theorem State.placeImage_cycle (img : List Byte) : (s.placeImage img).cycle = s.cycle := by
  unfold State.placeImage; split <;> simp
@[simp] theorem State.placeImage_scanline (img : List Byte) : (s.placeImage img).scanline = s.scanline := by
  unfold State.placeImage; split <;> simp
@[simp] theorem State.placeImage_frame (img : List Byte) : (s.placeImage img).frame = s.frame := by
  unfold State.placeImage; split <;> simp
@[simp] theorem State.placeImage_loaded (img : List Byte) : (s.placeImage img).loaded = s.loaded := by
  unfold State.placeImage; split <;> simp
@[simp] theorem State.placeImage_remaining (img : List Byte) : (s.placeImage img).remaining = s.remaining := by
  unfold State.placeImage; split <;> simp
@[simp] theorem State.placeImage_config (img : List Byte) : (s.placeImage img).config = s.config := by
  unfold State.placeImage; split <;> simp
@[simp] theorem State.placeImage_pending (img : List Byte) : (s.placeImage img).pending = s.pending := by
  unfold State.placeImage; split <;> simp
@[simp] theorem State.placeImage_inputs (img : List Byte) : (s.placeImage img).inputs = s.inputs := by
  unfold State.placeImage; split <;> simp
@[simp] theorem State.placeImage_polls (img : List Byte) : (s.placeImage img).polls = s.polls := by
  unfold State.placeImage; split <;> simp
@[simp] theorem State.placeImage_outputs (img : List Byte) : (s.placeImage img).outputs = s.outputs := by
  unfold State.placeImage; split <;> simp

/-! ### `ppuStep` -/

@[simp] theorem State.ppuStep_pc : s.ppuStep.pc = s.pc := by
  unfold State.ppuStep; split <;> (try split) <;> rfl
@[simp] theorem State.ppuStep_sp : s.ppuStep.sp = s.sp := by
  unfold State.ppuStep; split <;> (try split) <;> rfl
@[simp] theorem State.ppuStep_a : s.ppuStep.a = s.a := by
  unfold State.ppuStep; split <;> (try split) <;> rfl
@[simp] theorem State.ppuStep_x : s.ppuStep.x = s.x := by
  unfold State.ppuStep; split <;> (try split) <;> rfl
@[simp] theorem State.ppuStep_y : s.ppuStep.y = s.y := by
  unfold State.ppuStep; split <;> (try split) <;> rfl
@[simp] theorem State.ppuStep_p : s.ppuStep.p = s.p := by
  unfold State.ppuStep; split <;> (try split) <;> rfl
@[simp] theorem State.ppuStep_mem : s.ppuStep.mem = s.mem := by
  unfold State.ppuStep; split <;> (try split) <;> rfl
@[simp] theorem State.ppuStep_vram : s.ppuStep.vram = s.vram := by
  unfold State.ppuStep; split <;> (try split) <;> rfl
@[simp] theorem State.ppuStep_oam : s.ppuStep.oam = s.oam := by
  unfold State.ppuStep; split <;> (try split) <;> rfl
@[simp] theorem State.ppuStep_pal : s.ppuStep.pal = s.pal := by
  unfold State.ppuStep; split <;> (try split) <;> rfl
@[simp] theorem State.ppuStep_loaded : s.ppuStep.loaded = s.loaded := by
  unfold State.ppuStep; split <;> (try split) <;> rfl
@[simp] theorem State.ppuStep_remaining : s.ppuStep.remaining = s.remaining := by
  unfold State.ppuStep; split <;> (try split) <;> rfl
@[simp] theorem State.ppuStep_config : s.ppuStep.config = s.config := by
  unfold State.ppuStep; split <;> (try split) <;> rfl
@[simp] theorem State.ppuStep_pending : s.ppuStep.pending = s.pending := by
  unfold State.ppuStep; split <;> (try split) <;> rfl
@[simp] theorem State.ppuStep_inputs : s.ppuStep.inputs = s.inputs := by
  unfold State.ppuStep; split <;> (try split) <;> rfl
@[simp] theorem State.ppuStep_polls : s.ppuStep.polls = s.polls := by
  unfold State.ppuStep; split <;> (try split) <;> rfl

/-! ### `afterCpu` -/

@[simp] theorem State.afterCpu_pc : s.afterCpu.pc = s.pc := by
  simp [State.afterCpu]
@[simp] theorem State.afterCpu_sp : s.afterCpu.sp = s.sp := by
  simp [State.afterCpu]
@[simp] theorem State.afterCpu_a : s.afterCpu.a = s.a := by
  simp [State.afterCpu]
@[simp] theorem State.afterCpu_x : s.afterCpu.x = s.x := by
  simp [State.afterCpu]
@[simp] theorem State.afterCpu_y : s.afterCpu.y = s.y := by
  simp [State.afterCpu]
@[simp] theorem State.afterCpu_p : s.afterCpu.p = s.p := by
  simp [State.afterCpu]
@[simp] theorem State.afterCpu_vram : s.afterCpu.vram = s.vram := by
  simp [State.afterCpu]
@[simp] theorem State.afterCpu_oam : s.afterCpu.oam = s.oam := by
  simp [State.afterCpu]
@[simp] theorem State.afterCpu_pal : s.afterCpu.pal = s.pal := by
  simp [State.afterCpu]
@[simp] theorem State.afterCpu_loaded : s.afterCpu.loaded = s.loaded := by
  simp [State.afterCpu]
@[simp] theorem State.afterCpu_remaining : s.afterCpu.remaining = s.remaining - 1 := by
  simp [State.afterCpu]
@[simp] theorem State.afterCpu_config : s.afterCpu.config = s.config := by
  simp [State.afterCpu]
@[simp] theorem State.afterCpu_pending : s.afterCpu.pending = s.pending := by
  simp [State.afterCpu]

/-! ### `beginRunFrame` -/

@[simp] theorem State.beginRunFrame_pc : s.beginRunFrame.pc = s.pc := by
  unfold State.beginRunFrame; split <;> simp_all
@[simp] theorem State.beginRunFrame_sp : s.beginRunFrame.sp = s.sp := by
  unfold State.beginRunFrame; split <;> simp_all
@[simp] theorem State.beginRunFrame_a : s.beginRunFrame.a = s.a := by
  unfold State.beginRunFrame; split <;> simp_all
@[simp] theorem State.beginRunFrame_x : s.beginRunFrame.x = s.x := by
  unfold State.beginRunFrame; split <;> simp_all
@[simp] theorem State.beginRunFrame_y : s.beginRunFrame.y = s.y := by
  unfold State.beginRunFrame; split <;> simp_all
@[simp] theorem State.beginRunFrame_p : s.beginRunFrame.p = s.p := by
  unfold State.beginRunFrame; split <;> simp_all
@[simp] theorem State.beginRunFrame_mem : s.beginRunFrame.mem = s.mem := by
  unfold State.beginRunFrame; split <;> simp_all
@[simp] theorem State.beginRunFrame_vram : s.beginRunFrame.vram = s.vram := by
  unfold State.beginRunFrame; split <;> simp_all
@[simp] theorem State.beginRunFrame_oam : s.beginRunFrame.oam = s.oam := by
  unfold State.beginRunFrame; split <;> simp_all
@[simp] theorem State.beginRunFrame_pal : s.beginRunFrame.pal = s.pal := by
  unfold State.beginRunFrame; split <;> simp_all
@[simp] theorem State.beginRunFrame_cycle : s.beginRunFrame.cycle = s.cycle := by
  unfold State.beginRunFrame; split <;> simp_all
@[simp] theorem State.beginRunFrame_scanline : s.beginRunFrame.scanline = s.scanline := by
  unfold State.beginRunFrame; split <;> simp_all
@[simp] theorem State.beginRunFrame_frame : s.beginRunFrame.frame = s.frame := by
  unfold State.beginRunFrame; split <;> simp_all
@[simp] theorem State.beginRunFrame_loaded : s.beginRunFrame.loaded = s.loaded := by
  unfold State.beginRunFrame; split <;> simp_all
@[simp] theorem State.beginRunFrame_remaining : s.beginRunFrame.remaining = if s.loaded then iterPerRunFrame else s.remaining := by
  unfold State.beginRunFrame; split <;> simp_all
@[simp] theorem State.beginRunFrame_config : s.beginRunFrame.config = s.config := by
  unfold State.beginRunFrame; split <;> simp_all
@[simp] theorem State.beginRunFrame_pending : s.beginRunFrame.pending = s.pending := by
  unfold State.beginRunFrame; split <;> simp_all
@[simp] theorem State.beginRunFrame_inputs : s.beginRunFrame.inputs = s.inputs := by
  unfold State.beginRunFrame; split <;> simp_all
@[simp] theorem State.beginRunFrame_polls : s.beginRunFrame.polls = s.polls := by
  unfold State.beginRunFrame; split <;> simp_all
@[simp] theorem State.beginRunFrame_outputs : s.beginRunFrame.outputs = s.outputs := by
  unfold State.beginRunFrame; split <;> simp_all

/-! ### `setReg` -/

@[simp] theorem State.setReg_pc (r : Reg) (v : Byte) : (s.setReg r v).pc = s.pc := by
  cases r <;> rfl
@[simp] theorem State.setReg_mem (r : Reg) (v : Byte) : (s.setReg r v).mem = s.mem := by
  cases r <;> rfl
@[simp] theorem State.setReg_vram (r : Reg) (v : Byte) : (s.setReg r v).vram = s.vram := by
  cases r <;> rfl
@[simp] theorem State.setReg_oam (r : Reg) (v : Byte) : (s.setReg r v).oam = s.oam := by
  cases r <;> rfl
@[simp] theorem State.setReg_pal (r : Reg) (v : Byte) : (s.setReg r v).pal = s.pal := by
  cases r <;> rfl
@[simp] theorem State.setReg_cycle (r : Reg) (v : Byte) : (s.setReg r v).cycle = s.cycle := by
  cases r <;> rfl
@[simp] theorem State.setReg_scanline (r : Reg) (v : Byte) : (s.setReg r v).scanline = s.scanline := by
  cases r <;> rfl
@[simp] theorem State.setReg_frame (r : Reg) (v : Byte) : (s.setReg r v).frame = s.frame := by
  cases r <;> rfl
@[simp] theorem State.setReg_loaded (r : Reg) (v : Byte) : (s.setReg r v).loaded = s.loaded := by
  cases r <;> rfl
@[simp] theorem State.setReg_remaining (r : Reg) (v : Byte) : (s.setReg r v).remaining = s.remaining := by
  cases r <;> rfl
@[simp] theorem State.setReg_config (r : Reg) (v : Byte) : (s.setReg r v).config = s.config := by
  cases r <;> rfl
@[simp] theorem State.setReg_pending (r : Reg) (v : Byte) : (s.setReg r v).pending = s.pending := by
  cases r <;> rfl
@[simp] theorem State.setReg_inputs (r : Reg) (v : Byte) : (s.setReg r v).inputs = s.inputs := by
  cases r <;> rfl
@[simp] theorem State.setReg_polls (r : Reg) (v : Byte) : (s.setReg r v).polls = s.polls := by
  cases r <;> rfl
@[simp] theorem State.setReg_outputs (r : Reg) (v : Byte) : (s.setReg r v).outputs = s.outputs := by
  cases r <;> rfl

@[simp] theorem State.setReg_a_a (v : Byte) : (s.setReg .a v).a = v := rfl
@[simp] theorem State.setReg_a_x (v : Byte) : (s.setReg .a v).x = s.x := rfl
@[simp] theorem State.setReg_a_y (v : Byte) : (s.setReg .a v).y = s.y := rfl
@[simp] theorem State.setReg_a_sp (v : Byte) : (s.setReg .a v).sp = s.sp := rfl
@[simp] theorem State.setReg_a_p (v : Byte) : (s.setReg .a v).p = s.p := rfl
@[simp] theorem State.setReg_x_a (v : Byte) : (s.setReg .x v).a = s.a := rfl
@[simp] theorem State.setReg_x_x (v : Byte) : (s.setReg .x v).x = v := rfl
@[simp] theorem State.setReg_x_y (v : Byte) : (s.setReg .x v).y = s.y := rfl
@[simp] theorem State.setReg_x_sp (v : Byte) : (s.setReg .x v).sp = s.sp := rfl
@[simp] theorem State.setReg_x_p (v : Byte) : (s.setReg .x v).p = s.p := rfl
@[simp] theorem State.setReg_y_a (v : Byte) : (s.setReg .y v).a = s.a := rfl
@[simp] theorem State.setReg_y_x (v : Byte) : (s.setReg .y v).x = s.x := rfl
@[simp] theorem State.setReg_y_y (v : Byte) : (s.setReg .y v).y = v := rfl
@[simp] theorem State.setReg_y_sp (v : Byte) : (s.setReg .y v).sp = s.sp := rfl
@[simp] theorem State.setReg_y_p (v : Byte) : (s.setReg .y v).p = s.p := rfl
@[simp] theorem State.setReg_sp_a (v : Byte) : (s.setReg .sp v).a = s.a := rfl
@[simp] theorem State.setReg_sp_x (v : Byte) : (s.setReg .sp v).x = s.x := rfl
@[simp] theorem State.setReg_sp_y (v : Byte) : (s.setReg .sp v).y = s.y := rfl
@[simp] theorem State.setReg_sp_sp (v : Byte) : (s.setReg .sp v).sp = v := rfl
@[simp] theorem State.setReg_sp_p (v : Byte) : (s.setReg .sp v).p = s.p := rfl
@[simp] theorem State.setReg_p_a (v : Byte) : (s.setReg .p v).a = s.a := rfl
@[simp] theorem State.setReg_p_x (v : Byte) : (s.setReg .p v).x = s.x := rfl
@[simp] theorem State.setReg_p_y (v : Byte) : (s.setReg .p v).y = s.y := rfl
@[simp] theorem State.setReg_p_sp (v : Byte) : (s.setReg .p v).sp = s.sp := rfl
@[simp] theorem State.setReg_p_p (v : Byte) : (s.setReg .p v).p = v := rfl

/-- A write of a register is read back there, and every other register keeps its value. -/
@[simp] theorem State.reg_setReg (r q : Reg) (v : Byte) :
    (s.setReg r v).reg q = if q = r then v else s.reg q := by
  cases r <;> cases q <;> rfl

end Sys2Proof.Machine
end

