-- ==== Sys2Proof/Laws/Machine.lean ====
section
/-! SUPPORT. One lemma per shared operation that says everything it can do, and the canonical form of the stores
through each of them. -/

namespace Sys2Proof.Machine

/-! ### The program counter -/

/-- Not past the top of the address space, `PC` takes `npc` itself (41_cpu_step.md R153). -/
theorem wrapPc_of_le {npc : Nat} (h : npc ≤ 0xFFFF) : wrapPc npc = BitVec.ofNat 16 npc := by
  rw [wrapPc, if_neg (by omega)]

/-- Past it, `PC` goes to 0x8000. -/
theorem wrapPc_of_gt {npc : Nat} (h : 0xFFFF < npc) : wrapPc npc = 0x8000 := by
  rw [wrapPc, if_pos (by omega)]

@[simp] theorem wrapPc_word (w : Word) : wrapPc w.toNat = w := by
  rw [wrapPc_of_le (by have := w.isLt; omega)]; simp

theorem wrapPc_toNat (npc : Nat) : (wrapPc npc).toNat = if npc > 0xFFFF then 0x8000 else npc := by
  unfold wrapPc
  split
  · rfl
  · rw [BitVec.toNat_ofNat]; omega

/-! ### Instructions -/

@[simp] theorem exec_nop (s : State) : exec .nop s = .next (s.finishStep (s.pc.toNat + 1)) := rfl
@[simp] theorem exec_dnop (b : Byte) (s : State) : exec (.dnop b) s = .next (s.finishStep (s.pc.toNat + 1)) := rfl
@[simp] theorem exec_jmp (t : Word) (s : State) : exec (.jmp t) s = .next (s.finishStep t.toNat) := rfl
@[simp] theorem exec_lda (n : Byte) (s : State) :
    exec (.lda n) s = .next ((s.setReg .a n).finishStep (s.pc.toNat + 2)) := rfl

/-- Everything an instruction can do. -/
theorem exec_cases {i : Instr} {s t : State} (h : exec i s = .next t) :
    (∃ npc, t = s.finishStep npc ∧ ∀ n, i ≠ .lda n) ∨
    (∃ n, i = .lda n ∧ t = (s.setReg .a n).finishStep (s.pc.toNat + 2)) := by
  cases i <;> simp only [exec_nop, exec_jmp, exec_lda, exec_dnop, Host.Outcome.next.injEq] at h
  · exact .inl ⟨_, h.symm, by simp⟩
  · exact .inl ⟨_, h.symm, by simp⟩
  · exact .inr ⟨_, rfl, h.symm⟩
  · exact .inl ⟨_, h.symm, by simp⟩

/-- Everything a CPU step can do: it completes, writes `PC`, and writes `A` or leaves it. -/
theorem cpuStep_cases (s : State) :
    ∃ npc, cpuStep s = .next (s.finishStep npc) ∨
      ∃ n, cpuStep s = .next ((s.setReg .a n).finishStep npc) := by
  unfold cpuStep
  cases s.fetchInstr with
  | nop => exact ⟨_, .inl rfl⟩
  | jmp t => exact ⟨_, .inl rfl⟩
  | lda n => exact ⟨_, .inr ⟨_, rfl⟩⟩
  | dnop b => exact ⟨_, .inl rfl⟩

/-! ### Picture unit -/

/-- Everything a picture-unit step can do (45_ppu_step.md R204). -/
theorem State.ppuStep_cases (s : State) :
    (s.cycle + 1 ≠ 341 ∧ s.ppuStep = s.setCounters (s.cycle + 1) s.scanline s.frame) ∨
    (s.cycle + 1 = 341 ∧ s.scanline + 1 ≠ 262 ∧ s.ppuStep = s.setCounters 0 (s.scanline + 1) s.frame) ∨
    (s.cycle + 1 = 341 ∧ s.scanline + 1 = 262 ∧
      s.ppuStep = (s.setCounters 0 0 (s.frame + 1)).produceFramebuffer) := by
  unfold State.ppuStep
  split
  · split
    · exact .inr (.inr ⟨by assumption, by assumption, rfl⟩)
    · exact .inr (.inl ⟨by assumption, by assumption, rfl⟩)
  · exact .inl ⟨by assumption, rfl⟩

/-! ### Input -/

@[simp] theorem State.nextAnswer_cons {s : State} {b : Buttons} {rest : List Buttons} (h : s.inputs = b :: rest) :
    s.nextAnswer = b := by
  simp [State.nextAnswer, h]

@[simp] theorem State.nextAnswer_nil {s : State} (h : s.inputs = []) : s.nextAnswer = Config.freeButtons s.polls := by
  simp [State.nextAnswer, h]

@[simp] theorem State.inputByte_ppuStep (s : State) : s.ppuStep.inputByte = s.inputByte := by
  simp [State.inputByte, State.nextAnswer]
@[simp] theorem State.inputAddr_ppuStep (s : State) : s.ppuStep.inputAddr = s.inputAddr := by
  simp [State.inputAddr]
@[simp] theorem State.inputByte_finishStep (s : State) (n : Nat) : (s.finishStep n).inputByte = s.inputByte := rfl
@[simp] theorem State.inputAddr_finishStep (s : State) (n : Nat) : (s.finishStep n).inputAddr = s.inputAddr := rfl
@[simp] theorem State.inputByte_setReg (s : State) (r : Reg) (v : Byte) : (s.setReg r v).inputByte = s.inputByte := by
  cases r <;> rfl
@[simp] theorem State.inputAddr_setReg (s : State) (r : Reg) (v : Byte) : (s.setReg r v).inputAddr = s.inputAddr := by
  cases r <;> rfl

theorem State.inputAddr_lt (s : State) : s.inputAddr < memSize := s.config.inputRegAddr.isLt

/-! ### The step -/

/-- Everything a step can do: an idle engine takes up the host's next operation, and a running one does the CPU
step, the picture-unit step and the input step. -/
theorem step_cases {s t : State} (h : step s = .next t) :
    (s.remaining = 0 ∧ t = s.hostStep) ∨
    (s.remaining ≠ 0 ∧ ∃ u, cpuStep s = .next u ∧ t = u.afterCpu) := by
  unfold step at h
  split at h
  · exact .inl ⟨by assumption, by simpa using h.symm⟩
  · refine .inr ⟨by assumption, ?_⟩
    unfold iteration at h
    split at h
    · exact ⟨_, by assumption, by simpa using h.symm⟩
    · cases h
    · cases h

/-- Everything an idle engine can do with its host's next operation. -/
theorem State.hostStep_cases (s : State) :
    (s.pending = [] ∧ s.hostStep = s) ∨
    (∃ img ops, s.pending = .loadROM img :: ops ∧ s.hostStep = s.takeOp.loadROM img) ∨
    (∃ ops, s.pending = .reset :: ops ∧ s.hostStep = s.takeOp.resetEngine) ∨
    (∃ ops, s.pending = .runFrame :: ops ∧ s.hostStep = s.takeOp.beginRunFrame) ∨
    (∃ ops, s.pending = .isLoaded :: ops ∧ s.hostStep = s.takeOp.emit (.loadedFlag s.loaded)) := by
  unfold State.hostStep
  split
  · exact .inl ⟨by assumption, rfl⟩
  · rename_i op ops h
    cases op with
    | loadROM img => exact .inr (.inl ⟨img, ops, h, rfl⟩)
    | reset => exact .inr (.inr (.inl ⟨ops, h, rfl⟩))
    | runFrame => exact .inr (.inr (.inr (.inl ⟨ops, h, rfl⟩)))
    | isLoaded => exact .inr (.inr (.inr (.inr ⟨ops, h, rfl⟩)))

/-- Both ways a `loadROM` can go (40_cartridge_loader.md R132). -/
theorem State.loadROM_cases (s : State) (img : List Byte) :
    (img.length < 16 ∧ s.loadROM img = s.emit (.loadResult .tooSmall)) ∨
    (16 ≤ img.length ∧
      s.loadROM img = (s.placeImage img).markLoaded.resetEngine.emit (.loadResult .success)) := by
  unfold State.loadROM
  split
  · exact .inl ⟨by assumption, rfl⟩
  · exact .inr ⟨by simp_all, rfl⟩

/-- A step that takes up the host's next operation. -/
theorem step_of_issued {s : State} {op : HostOp} {ops : List HostOp} (h : s.issued op ops) :
    step s = .next (s.takeOp.hostOp op) := by
  simp [step, h.1, State.hostStep, h.2]

/-- The queue after an operation is taken up. -/
theorem State.takeOp_of_issued {s : State} {op : HostOp} {ops : List HostOp} (h : s.issued op ops) :
    s.takeOp = { s with pending := ops } := by
  simp [State.takeOp, h.2]

/-- A step of a running engine. -/
theorem step_of_running {s u : State} (hr : s.remaining ≠ 0) (h : cpuStep s = .next u) : step s = .next u.afterCpu := by
  unfold step iteration
  rw [if_neg hr, h]

/-- A `loadROM` of an image that is long enough. -/
theorem State.loadROM_of_length {s : State} {img : List Byte} (h : 16 ≤ img.length) :
    s.loadROM img = (s.placeImage img).markLoaded.resetEngine.emit (.loadResult .success) := by
  obtain ⟨hl, -⟩ | ⟨-, e⟩ := s.loadROM_cases img
  · omega
  · exact e

/-- Everything a step can do, down to the operations: an iteration (`PC`, perhaps `A`, then picture unit and input),
nothing, or one of the host's operations. -/
theorem step_outcomes {s t : State} (h : step s = .next t) :
    (s.remaining ≠ 0 ∧ ∃ npc v, (v = s ∨ ∃ n, v = s.setReg .a n) ∧ t = (v.finishStep npc).afterCpu) ∨
    t = s ∨
    (∃ img ops, s.issued (.loadROM img) ops ∧ img.length < 16 ∧ t = s.takeOp.emit (.loadResult .tooSmall)) ∨
    (∃ img ops, s.issued (.loadROM img) ops ∧ 16 ≤ img.length ∧
      t = (s.takeOp.placeImage img).markLoaded.resetEngine.emit (.loadResult .success)) ∨
    (∃ ops, s.issued .reset ops ∧ t = s.takeOp.resetEngine) ∨
    (∃ ops, s.issued .runFrame ops ∧ t = s.takeOp.beginRunFrame) ∨
    (∃ ops, s.issued .isLoaded ops ∧ t = s.takeOp.emit (.loadedFlag s.loaded)) := by
  obtain ⟨hr, rfl⟩ | ⟨hr, u, hu, rfl⟩ := step_cases h
  · right
    obtain ⟨-, e⟩ | ⟨img, ops, hp, e⟩ | ⟨ops, hp, e⟩ | ⟨ops, hp, e⟩ | ⟨ops, hp, e⟩ := s.hostStep_cases <;> rw [e]
    · exact .inl rfl
    · obtain ⟨hl, e⟩ | ⟨hl, e⟩ := s.takeOp.loadROM_cases img
      · exact .inr (.inl ⟨img, ops, ⟨hr, hp⟩, hl, e⟩)
      · exact .inr (.inr (.inl ⟨img, ops, ⟨hr, hp⟩, hl, e⟩))
    · exact .inr (.inr (.inr (.inl ⟨ops, ⟨hr, hp⟩, rfl⟩)))
    · exact .inr (.inr (.inr (.inr (.inl ⟨ops, ⟨hr, hp⟩, rfl⟩))))
    · exact .inr (.inr (.inr (.inr (.inr ⟨ops, ⟨hr, hp⟩, rfl⟩))))
  · left
    obtain ⟨npc, h | ⟨n, h⟩⟩ := cpuStep_cases s <;> rw [hu] at h <;> injection h with h <;> subst h
    · exact ⟨hr, npc, s, .inl rfl, rfl⟩
    · exact ⟨hr, npc, _, .inr ⟨n, rfl⟩, rfl⟩

/-! ### Reset -/

/-- The reset reads memory and `RESET_VEC` and nothing else (20_memory.md R61). -/
theorem State.resetPc_congr {s t : State} (hm : s.mem = t.mem) (hc : s.config = t.config) : s.resetPc = t.resetPc := by
  unfold State.resetPc State.resetVector
  rw [hm, hc]

/-! ### Input byte -/

@[simp] theorem buttonMask_getElem (p : Bool) (m : Byte) (k : Nat) (h : k < 8) :
    (buttonMask p m)[k] = (p && m[k]) := by
  cases p <;> simp [buttonMask]

@[simp] theorem buttonMask_getLsbD (p : Bool) (m : Byte) (k : Nat) :
    (buttonMask p m).getLsbD k = (p && m.getLsbD k) := by
  cases p <;> simp [buttonMask]

/-! ### The loader keeps the stores canonical -/

theorem imageSlice_length_le (img : List Byte) (o n : Nat) : (imageSlice img o n).length ≤ n :=
  List.length_take_le _ _

theorem prgCount_le (img : List Byte) : prgCount img ≤ 0x8000 := by
  simp only [prgCount, prgCap]; omega

theorem chrCount_le (img : List Byte) : chrCount img ≤ 16384 := by
  simp only [chrCount, vramSize]; omega

theorem genericCount_le (img : List Byte) : genericCount img ≤ 0x8000 := by
  simp only [genericCount, genericCap]; omega

/-- Byte `i` of a slice of the image. -/
theorem imageSlice_getD (img : List Byte) (o n i : Nat) :
    (imageSlice img o n).getD i 0 = if i < n then img.getD (o + i) 0 else 0 := by
  unfold imageSlice
  simp only [List.getD_eq_getElem?_getD, List.getElem?_take]
  split <;> simp

theorem State.placeImage_mem (s : State) (img : List Byte) :
    (s.placeImage img).mem =
      if recognized s.config img then
        let prg := (s.mem.zeroRange romBase prgCap).place romBase (imageSlice img headerLen (prgCount img))
        if prgUnits img = 1 then prg.copyRange romBase mirrorBase prgUnit else prg
      else (s.mem.zeroRange romBase prgCap).place romBase (imageSlice img 0 (genericCount img)) := by
  unfold State.placeImage
  split <;> simp

theorem State.placeImage_vram (s : State) (img : List Byte) :
    (s.placeImage img).vram =
      if recognized s.config img then
        (s.vram.zeroRange 0 vramSize).place 0 (imageSlice img (chrOffset img) (chrCount img))
      else s.vram.zeroRange 0 vramSize := by
  unfold State.placeImage
  split <;> simp

/-- A load changes `mem` and `vram` before it marks and resets. -/
theorem State.placeImage_eta (s : State) (img : List Byte) :
    s.placeImage img = { s with mem := (s.placeImage img).mem, vram := (s.placeImage img).vram } := by
  ext1 <;> simp

theorem State.placeImage_mem_wf {s : State} (img : List Byte) (h : s.mem.wf memSize = true) :
    (s.placeImage img).mem.wf memSize = true := by
  have hz := Memory.zeroRange_wf (size := memSize) romBase prgCap h
  have h1 := imageSlice_length_le img headerLen (prgCount img)
  have h2 := imageSlice_length_le img 0 (genericCount img)
  have h3 := prgCount_le img
  have h4 := genericCount_le img
  rw [State.placeImage_mem]
  simp only [memSize, romBase] at *
  split
  · have hp := Memory.place_wf (base := 0x8000) (bs := imageSlice img headerLen (prgCount img)) (by omega) hz
    split
    · exact Memory.copyRange_wf (by decide) hp
    · exact hp
  · exact Memory.place_wf (by omega) hz

theorem State.placeImage_vram_wf {s : State} (img : List Byte) (h : s.vram.wf vramSize = true) :
    (s.placeImage img).vram.wf vramSize = true := by
  have hz := Memory.zeroRange_wf (size := vramSize) 0 vramSize h
  have h1 := imageSlice_length_le img (chrOffset img) (chrCount img)
  have h2 := chrCount_le img
  rw [State.placeImage_vram]
  split
  · exact Memory.place_wf (by simp only [vramSize]; omega) hz
  · exact hz

end Sys2Proof.Machine
end

