-- ==== Sys2Proof/Laws/PerInstr.lean ====
section
/-! SUPPORT. Facts about every instruction as syntax, one lemma per constructor. -/

/-- The encoding of a well-formed instruction has the length that its byte 0 announces (30_encoding.md R98). -/
def Sys2Proof.Laws.EncodeLength.Statement (i : Sys2Proof.Instr) : Prop :=
  i.wellFormed = true →
    ∃ opcode rest, Sys2Proof.encode i = opcode :: rest ∧ (Sys2Proof.encode i).length = Sys2Proof.instrLength opcode

theorem Sys2Proof.Laws.EncodeLength.nop : Sys2Proof.Laws.EncodeLength.Statement .nop :=
  fun _ => ⟨_, _, rfl, rfl⟩

theorem Sys2Proof.Laws.EncodeLength.jmp (target : Sys2Proof.Word) :
    Sys2Proof.Laws.EncodeLength.Statement (.jmp target) :=
  fun _ => ⟨_, _, rfl, rfl⟩

theorem Sys2Proof.Laws.EncodeLength.lda (imm : Sys2Proof.Byte) : Sys2Proof.Laws.EncodeLength.Statement (.lda imm) :=
  fun _ => ⟨_, _, rfl, rfl⟩

theorem Sys2Proof.Laws.EncodeLength.dnop (opcode : Sys2Proof.Byte) :
    Sys2Proof.Laws.EncodeLength.Statement (.dnop opcode) := by
  intro h
  refine ⟨opcode, [], rfl, ?_⟩
  simp only [Sys2Proof.Instr.wellFormed, Bool.and_eq_true, bne_iff_ne, ne_eq] at h
  rw [Sys2Proof.instrLength, if_neg h.1.2, if_neg h.2, Sys2Proof.encode, List.length_singleton]
end

