-- ==== Sys2Proof/Tests/Slice0.lean ====
section
/-! SUPPORT. Tests. Expected values are the spec's: "T-…", "P1" and "S6" name rows of spec/95_test_vectors.md. A
`witness_<Name>` shows a state and operands that meet the hypotheses of `Obligations.<Name>`; each of its parts meets
those of one clause, at a boundary where the clause has a range. -/

namespace Sys2Proof.Tests
open Sys2Proof.Machine

/-! ### Helpers -/

/-- No button pressed. -/
def quiet : Buttons := ⟨false, false, false, false, false, false, false, false⟩

/-- Up, right, b and start pressed (T-I13). -/
def chord : Buttons := ⟨true, false, false, true, false, true, false, true⟩

/-- A loaded engine with a `runFrame` in progress, the given `PC`, `A` and memory, and no button pressed. -/
def at_ (pc : Word) (a : Byte) (mem : Memory) : State :=
  { State.reset with pc := pc, a := a, mem := mem, loaded := true, remaining := 3, inputs := [quiet] }

/-- An idle engine whose host has issued one operation. -/
def asked (op : HostOp) : State := { State.reset with pending := [op] }

/-- The state after one step. -/
def after (s : State) : State :=
  match step s with
  | .next t    => t
  | .fault _   => s
  | .refused _ => s

/-- An image: a header of sixteen bytes with the given first six, then the given bytes. -/
def image (b0 b1 b2 b3 b4 b5 : Byte) (rest : List Byte) : List Byte :=
  b0 :: b1 :: b2 :: b3 :: b4 :: b5 :: (List.replicate 10 0 ++ rest)

/-- The image of T-L5: recognized, one program unit, four bytes of program. -/
def imageL5 : List Byte := image 0x4E 0x45 0x53 0x1A 1 0 [0xA9, 0x42, 0xEA, 0x4C]
/-- The image of T-L6: as T-L5 with two units. -/
def imageL6 : List Byte := image 0x4E 0x45 0x53 0x1A 2 0 [0xA9, 0x42, 0xEA, 0x4C]
/-- The image of T-L7: generic, by its fourth byte. -/
def imageL7 : List Byte := image 0x4E 0x45 0x53 0x1B 1 0 []
/-- The image of T-L2: fifteen bytes. -/
def imageL2 : List Byte := (image 0x4E 0x45 0x53 0x1A 1 1 []).take 15
/-- A recognized image with no program unit and one graphics unit, of which two bytes are there. -/
def imageChr : List Byte := image 0x4E 0x45 0x53 0x1A 0 1 [0x03, 0x0A]

/-! ### Well-formedness: the check refuses each ill-formed term -/

theorem smoke_dnop_is_not_nop : (Instr.dnop 0xEA).wellFormed = false := by decide
theorem smoke_dnop_is_not_jmp : (Instr.dnop 0x4C).wellFormed = false := by decide
theorem smoke_dnop_is_not_lda : (Instr.dnop 0xA9).wellFormed = false := by decide
theorem smoke_dnop_brk : (Instr.dnop 0x00).wellFormed = true := by decide

/-! ### Decoding: words written out from 30_encoding.md R91 to R95 -/

/-- `EA` = 1110 1010. -/
theorem test_decode_nop : decode [0b11101010, 0x07] = .ok (.nop, [0x07]) := rfl
/-- `4C 00 90` (S6): 0100 1100, then the low byte, then the high byte. -/
theorem test_decode_jmp : decode [0b01001100, 0b00000000, 0b10010000] = .ok (.jmp 0x9000, []) := rfl
/-- `A9 42` (S6): 1010 1001, then the immediate. -/
theorem test_decode_lda : decode [0b10101001, 0b01000010] = .ok (.lda 0x42, []) := rfl
/-- `AD 34 12` (T-N4): one byte long, whatever follows. -/
theorem test_decode_dnop : decode [0b10101101, 0x34, 0x12] = .ok (.dnop 0xAD, [0x34, 0x12]) := rfl
/-- One above `JMP` and one below `LDA` (T-N6, T-N7). -/
theorem test_decode_neighbours : decode [0x4D] = .ok (.dnop 0x4D, []) ∧ decode [0xA8] = .ok (.dnop 0xA8, []) :=
  ⟨rfl, rfl⟩
theorem test_decode_short_jmp : decode [0x4C, 0x00] = .error (.missingOperand 0x4C) := rfl
theorem test_decode_nothing : decode [] = .error .noOpcode := rfl

/-- The opcode table's numbering: byte 0 is bits 7:0. -/
theorem test_table_jmp : decodeTableWord 24 0x90004C = some (.jmp 0x9000) := by decide
theorem test_table_lda : decodeTableWord 16 0x42A9 = some (.lda 0x42) := by decide
theorem test_table_lda_cut : decodeTableWord 8 0x42A9 = some (.lda 0x00) := by decide
theorem test_table_dnop : decodeTableWord 8 0x02 = some (.dnop 0x02) := by decide

/-! ### One step of each instruction -/

/-- T-N11 and T-N9: the advance to 0xFFFF, and the wrap after it. -/
theorem test_nop_wrap :
    (after (at_ 0xFFFE 0x5A [(0xFFFE, 0xEA)])).pc = 0xFFFF ∧ (after (at_ 0xFFFF 0x5A [(0xFFFF, 0xEA)])).pc = 0x8000 := by
  decide
/-- T-N4 and T-N15: no operand is consumed, nothing halts. -/
theorem test_dnop :
    (after (at_ 0x8000 0x5A [(0x8000, 0xAD), (0x8001, 0x34)])).pc = 0x8001 ∧
      (after (at_ 0x8000 0x5A [(0x8000, 0x02)])).a = 0x5A := by
  decide
/-- T-J1 and T-J8: an ordinary jump, and one whose high byte comes from `mem[0000]`. -/
theorem test_jmp :
    (after (at_ 0x8000 0 [(0x8000, 0x4C), (0x8002, 0x90)])).pc = 0x9000 ∧
      (after (at_ 0xFFFE 0 [(0xFFFE, 0x4C), (0xFFFF, 0x34)])).pc = 0x0034 := by
  decide
/-- T-J10: the operand byte at 0x0000 is read, and is not zero there. -/
theorem test_jmp_operand_wraps : (after (at_ 0xFFFF 0 [(0x0000, 0x34), (0xFFFF, 0x4C)])).pc = 0x0034 := by decide
/-- T-A3: a negative result sets no flag. -/
theorem test_lda :
    (after (at_ 0x8000 0 [(0x8000, 0xA9), (0x8001, 0x80)])).a = 0x80 ∧
      (after (at_ 0x8000 0 [(0x8000, 0xA9), (0x8001, 0x80)])).p = 0x24 ∧
      (after (at_ 0x8000 0 [(0x8000, 0xA9), (0x8001, 0x80)])).pc = 0x8002 := by
  decide
/-- T-A8: the operand comes from `mem[0000]`, and `PC` wraps to 0x8000, not to 0x0001. -/
theorem test_lda_wrap :
    (after (at_ 0xFFFF 0x77 [(0xFFFF, 0xA9)])).a = 0x00 ∧ (after (at_ 0xFFFF 0x77 [(0xFFFF, 0xA9)])).pc = 0x8000 := by
  decide

/-! ### The engine -/

/-- T-P3 and T-P5. -/
theorem test_scan_wraps :
    ({ State.reset with cycle := 340 }).ppuStep.scanline = 1 ∧
      ({ State.reset with cycle := 340, scanline := 261, frame := 7 }).ppuStep.frame = 8 := by
  decide
/-- T-F3, T-F4, T-F5. -/
theorem test_pixels :
    pixelAt [(0x8000, 0xA9)] 1 0 0 = 0xFFFB52AA ∧ pixelAt [(0x8000, 0xA9)] 1 0 128 = 0xFF7B52AA ∧
      pixelAt [(0xEFFF, 0xFF)] 1 255 239 = 0xFFECFD00 := by
  decide
/-- T-F7: only `frame mod 256` counts. -/
theorem test_pixel_frame : pixelAt [(0x8001, 0x42)] 256 1 0 = 0xFFC68542 := by decide
/-- T-I12 and T-I13. -/
theorem test_input_byte :
    packButtons ButtonOrder.listing chord = 0xA9 ∧
      packButtons ButtonOrder.listing ⟨false, false, true, true, false, false, true, false⟩ = 0x4C := by
  decide
/-- T-I14: the input byte is written after the CPU step, and is not executed in this iteration. -/
theorem test_iteration_order :
    (after { at_ 0x4016 0x77 [] with inputs := [chord] }).mem = [(0x4016, 0xA9)] ∧
      (after { at_ 0x4016 0x77 [] with inputs := [chord] }).a = 0x77 ∧
      (after { at_ 0x4016 0x77 [] with inputs := [chord] }).pc = 0x4017 := by
  decide
/-- T-R1 and T-R3: the fallback needs both bytes zero. -/
theorem test_reset_vector :
    ({ State.reset with pc := 0x1234 }).resetEngine.pc = 0x8000 ∧
      ({ State.reset with mem := [(0xFFFD, 0x90)] }).resetEngine.pc = 0x9000 := by
  decide
/-- T-L2. -/
theorem test_load_short : (after (asked (.loadROM imageL2))).outputs = [.loadResult .tooSmall] := by decide
/-- T-L5: the program, and its mirror. -/
theorem test_load_mirror :
    (after (asked (.loadROM imageL5))).mem =
      [(0x8000, 0xA9), (0x8001, 0x42), (0x8002, 0xEA), (0x8003, 0x4C),
       (0xC000, 0xA9), (0xC001, 0x42), (0xC002, 0xEA), (0xC003, 0x4C)] := by
  decide
/-- T-L6: two units, no mirror. -/
theorem test_load_two_units :
    (after (asked (.loadROM imageL6))).mem = [(0x8000, 0xA9), (0x8001, 0x42), (0x8002, 0xEA), (0x8003, 0x4C)] := by
  decide
/-- T-L7: an image that is not recognized is placed from its first byte. -/
theorem test_load_generic :
    (after (asked (.loadROM imageL7))).mem =
      [(0x8000, 0x4E), (0x8001, 0x45), (0x8002, 0x53), (0x8003, 0x1B), (0x8004, 1)] := by
  decide
/-- 40_cartridge_loader.md R128: graphics from `vram[0]`. -/
theorem test_load_graphics : (after (asked (.loadROM imageChr))).vram = [(0, 0x03), (1, 0x0A)] := by decide
/-- T-H1 and T-H2. -/
theorem test_loaded_flag :
    (after (asked .isLoaded)).outputs = [.loadedFlag false] ∧ (after (asked .runFrame)).remaining = 0 ∧
      (after (asked (.loadROM imageL5))).loaded = true := by
  decide
/-- The host's word is what the next step runs. -/
theorem test_with_fetch_word : (after ({ State.reset with inputs := [quiet] }.withFetchWord 16 0x42A9)).a = 0x42 := by
  decide

/-! ### Witnesses -/

theorem witness_DecodeOfEncodeIsTheInstruction :
    Instr.nop.wellFormed = true ∧ (Instr.jmp 0xFFFF).wellFormed = true ∧ (Instr.lda 0xFF).wellFormed = true ∧
      (Instr.dnop 0x4B).wellFormed = true := by decide

theorem witness_EncodeOfDecodeIsTheBytesRead : decode [0xA9, 0x42, 0x07] = .ok (.lda 0x42, [0x07]) := rfl

theorem witness_NoOperationIgnoresFollowingBytes : (0xEA : Byte) ≠ 0x4C ∧ (0xEA : Byte) ≠ 0xA9 := by decide

theorem witness_NopOnlyAdvancesProgramCounter : (at_ 0xFFFF 0 [(0xFFFF, 0xEA)]).mem.read 0xFFFF = 0xEA := by decide

theorem witness_DefaultNopOnlyAdvancesProgramCounter :
    (at_ 0x8000 0 []).mem.read 0x8000 = 0x00 ∧ (0x00 : Byte) ≠ 0xEA ∧ (0x00 : Byte) ≠ 0x4C ∧ (0x00 : Byte) ≠ 0xA9 := by
  decide

theorem witness_InstructionsChangeOnlyPcAndLdaAlsoA :
    ∃ t u, exec (.lda 0x42) State.reset = .next t ∧ exec (.jmp 0x9000) State.reset = .next u ∧
      ∀ n, Instr.jmp 0x9000 ≠ .lda n := ⟨_, _, rfl, rfl, fun _ h => by cases h⟩

theorem witness_WithoutJmpProgramCounterGoesUpOrWraps :
    (at_ 0x8000 0 [(0x8000, 0xA9)]).remaining ≠ 0 ∧
      step (at_ 0x8000 0 [(0x8000, 0xA9)]) = .next (after (at_ 0x8000 0 [(0x8000, 0xA9)])) ∧
      (at_ 0x8000 0 [(0x8000, 0xA9)]).mem.read 0x8000 ≠ 0x4C ∧ 0x8000 ≤ (at_ 0x8000 0 [(0x8000, 0xA9)]).pc.toNat :=
  ⟨by decide, rfl, by decide, by decide⟩

theorem witness_StepRunsTheDecodedInstruction :
    (at_ 0xFFFF 0x77 [(0xFFFF, 0xA9)]).remaining ≠ 0 ∧
      decode [(at_ 0xFFFF 0x77 [(0xFFFF, 0xA9)]).mem.read 0xFFFF, (at_ 0xFFFF 0x77 [(0xFFFF, 0xA9)]).mem.read 0,
        (at_ 0xFFFF 0x77 [(0xFFFF, 0xA9)]).mem.read 1] = .ok (.lda 0, [0]) := ⟨by decide, rfl⟩

theorem witness_IterationOrderOfEffects :
    (at_ 0x8000 0 []).remaining ≠ 0 ∧
      ({ at_ 0x8000 0 [] with cycle := 340, scanline := 261 }).remaining ≠ 0 := by decide

theorem witness_NextFetchSeesTheInputByte :
    ∃ s t : State, s.remaining ≠ 0 ∧ s.mem.wf 65536 = true ∧ step s = .next t ∧ t.pc = s.config.inputRegAddr :=
  ⟨at_ 0x4015 0 [], after (at_ 0x4015 0 []), by decide, by decide, rfl, by decide⟩

theorem witness_IdleEngineKeepsAllState : State.reset.remaining = 0 ∧ State.reset.pending = [] := by decide

/-- One state for each clause, at the last count before a wrap. -/
theorem witness_CycleAndScanlineCount :
    ({ State.reset with cycle := 339 }).cycle + 1 ≠ 341 ∧
      (({ State.reset with cycle := 340, scanline := 260 }).cycle + 1 = 341 ∧
        ({ State.reset with cycle := 340, scanline := 260 }).scanline + 1 ≠ 262) ∧
      (({ State.reset with cycle := 340, scanline := 261 }).cycle + 1 = 341 ∧
        ({ State.reset with cycle := 340, scanline := 261 }).scanline + 1 = 262) := by
  decide

theorem witness_ScanWrapEmitsOneFramebuffer :
    ({ State.reset with cycle := 340, scanline := 261 }).cycle = 340 ∧
      ({ State.reset with cycle := 340, scanline := 261 }).scanline = 261 := by decide

theorem witness_ScanPositionAdvancesByOne :
    State.reset.countersInRange ∧ ({ State.reset with cycle := 340, scanline := 261 }).countersInRange := by decide

theorem witness_ScanPositionLawOverIterations :
    ({ at_ 0x8000 0 [] with cycle := 340, scanline := 261 }).countersInRange ∧ 3 ≤ (at_ 0x8000 0 []).remaining := by
  decide

/-- On both sides of scan position 59,562 (T-P13, T-P14). -/
theorem witness_RunFrameDoesItsIterations :
    (({ asked .runFrame with loaded := true, cycle := 227, scanline := 174 }).issued .runFrame [] ∧
      ({ asked .runFrame with loaded := true, cycle := 227, scanline := 174 }).loaded = true ∧
      ({ asked .runFrame with loaded := true, cycle := 227, scanline := 174 }).countersInRange ∧
      ({ asked .runFrame with loaded := true, cycle := 227, scanline := 174 }).scanPos = 59561) ∧
    (({ asked .runFrame with loaded := true, cycle := 228, scanline := 174 }).issued .runFrame [] ∧
      ({ asked .runFrame with loaded := true, cycle := 228, scanline := 174 }).loaded = true ∧
      ({ asked .runFrame with loaded := true, cycle := 228, scanline := 174 }).countersInRange ∧
      ({ asked .runFrame with loaded := true, cycle := 228, scanline := 174 }).scanPos = 59562) := by
  decide

theorem witness_UnloadedRunFrameDoesNothing :
    (asked .runFrame).issued .runFrame [] ∧ (asked .runFrame).loaded = false := by decide

theorem witness_PixelValueFromItsSample : 255 < 256 ∧ 239 < 240 ∧ 127 < 128 ∧ 128 ≤ 128 := by decide

theorem witness_FramebufferHoldsEveryPixelAtItsIndex : 255 < 256 ∧ 239 < 240 := by decide

/-- Two memories that differ below the region, and two frames that differ by 256. -/
theorem witness_FramebufferReadsOnlyProgramRegionAndFrame :
    (∀ a, 0x8000 ≤ a → a ≤ 0xFFFF → Memory.read [(0x7FFF, 1), (0x8000, 2)] a = Memory.read [(0x8000, 2)] a) ∧
      0 % 256 = 256 % 256 := by
  refine ⟨fun a h _ => ?_, by decide⟩
  rw [Memory.read_cons, if_neg (by omega)]

theorem witness_InputStepStoresThePackedAnswer :
    (at_ 0x8000 0 []).mem.wf 65536 = true ∧ (at_ 0x8000 0 []).inputs = quiet :: [] ∧ State.reset.mem.wf 65536 = true ∧
      State.reset.inputs = [] := by decide

theorem witness_InputByteBitsAreTheButtons : 0 < 8 ∧ 7 < 8 := by decide

theorem witness_ResetRestoresRegistersAndCounters : (asked .reset).issued .reset [] := by decide

/-- Fifteen bytes, and sixteen. -/
theorem witness_ShortImageIsTooSmall :
    ((asked (.loadROM imageL2)).issued (.loadROM imageL2) [] ∧ imageL2.length < 16) ∧
      ((asked (.loadROM imageL7)).issued (.loadROM imageL7) [] ∧ 16 ≤ imageL7.length) := by decide

theorem witness_LoadEndsWithLoadedAndReset :
    (asked (.loadROM imageL7)).issued (.loadROM imageL7) [] ∧ 16 ≤ imageL7.length := by decide

theorem witness_GenericImageIsPlacedWhole :
    (asked (.loadROM imageL7)).storesCanonical ∧ (asked (.loadROM imageL7)).issued (.loadROM imageL7) [] ∧
      16 ≤ imageL7.length ∧ imageL7.take 4 ≠ (asked (.loadROM imageL7)).config.magic.bytes := by decide

/-- One unit, with its mirror, and two units, without. -/
theorem witness_RecognizedImagePlacesProgramAndMirror :
    ((asked (.loadROM imageL5)).storesCanonical ∧ (asked (.loadROM imageL5)).issued (.loadROM imageL5) [] ∧
      16 ≤ imageL5.length ∧ imageL5.take 4 = (asked (.loadROM imageL5)).config.magic.bytes ∧
      (imageL5.getD 4 0).toNat = 1) ∧
    ((asked (.loadROM imageL6)).storesCanonical ∧ (asked (.loadROM imageL6)).issued (.loadROM imageL6) [] ∧
      16 ≤ imageL6.length ∧ imageL6.take 4 = (asked (.loadROM imageL6)).config.magic.bytes ∧
      (imageL6.getD 4 0).toNat ≠ 1) := by decide

theorem witness_RecognizedImagePlacesGraphics :
    (asked (.loadROM imageChr)).storesCanonical ∧ (asked (.loadROM imageChr)).issued (.loadROM imageChr) [] ∧
      16 ≤ imageChr.length ∧ imageChr.take 4 = (asked (.loadROM imageChr)).config.magic.bytes := by decide

theorem witness_LoadLeavesLowMemoryAndOtherBuffers :
    (asked (.loadROM imageL5)).storesCanonical ∧ (asked (.loadROM imageL5)).issued (.loadROM imageL5) [] ∧
      step (asked (.loadROM imageL5)) = .next (after (asked (.loadROM imageL5))) := ⟨by decide, by decide, rfl⟩

/-- Two engines that held different bytes. -/
theorem witness_LoadForgetsTheEarlierImage :
    ∃ s s' t t' : State, s.mem ≠ s'.mem ∧ s.storesCanonical ∧ s'.storesCanonical ∧ s.config = s'.config ∧
      s.issued (.loadROM imageL5) [] ∧ s'.issued (.loadROM imageL5) [] ∧ 16 ≤ imageL5.length ∧ step s = .next t ∧
      step s' = .next t' :=
  ⟨asked (.loadROM imageL5), { asked (.loadROM imageL5) with mem := [(0x9000, 7)] }, _, _, by decide, by decide,
    by decide, by decide, by decide, by decide, by decide, rfl, rfl⟩

theorem witness_LoadingTwiceIsLoadingOnce : State.reset.storesCanonical ∧ 16 ≤ imageL5.length := by decide

theorem witness_IsLoadedReturnsTheFlag : (asked .isLoaded).issued .isLoaded [] := by decide

theorem witness_OnlyASuccessfulLoadSetsLoaded :
    step (asked (.loadROM imageL5)) = .next (after (asked (.loadROM imageL5))) ∧
      (asked (.loadROM imageL5)).loaded = false ∧ (after (asked (.loadROM imageL5))).loaded = true ∧
      step (at_ 0x8000 0 []) = .next (after (at_ 0x8000 0 [])) ∧ (at_ 0x8000 0 []).loaded = true :=
  ⟨rfl, by decide, by decide, rfl, by decide⟩

theorem witness_OnlyLoadWritesOtherMemory :
    (asked (.loadROM imageL5)).storesCanonical ∧
      step (asked (.loadROM imageL5)) = .next (after (asked (.loadROM imageL5))) ∧
      0xC003 ≠ (asked (.loadROM imageL5)).config.inputRegAddr.toNat ∧
      (after (asked (.loadROM imageL5))).mem.read 0xC003 ≠ (asked (.loadROM imageL5)).mem.read 0xC003 :=
  ⟨by decide, rfl, by decide, by decide⟩

theorem witness_OnlyLoadWritesVideoRam :
    step (asked (.loadROM imageChr)) = .next (after (asked (.loadROM imageChr))) ∧
      (after (asked (.loadROM imageChr))).vram ≠ (asked (.loadROM imageChr)).vram := ⟨rfl, by decide⟩

/-- An instruction, and a reset that changes `X`. -/
theorem witness_OnlyResetWritesInertRegisters :
    step (at_ 0x8000 0 []) = .next (after (at_ 0x8000 0 [])) ∧
      step { asked .reset with x := 1 } = .next (after { asked .reset with x := 1 }) := ⟨rfl, rfl⟩

/-- The last iteration of a frame, and a reset from frame 7. -/
theorem witness_FrameCounterIsMonotonicBetweenResets :
    step { at_ 0x8000 0 [] with cycle := 340, scanline := 261 } =
        .next (after { at_ 0x8000 0 [] with cycle := 340, scanline := 261 }) ∧
      step { asked .reset with frame := 7 } = .next (after { asked .reset with frame := 7 }) := ⟨rfl, rfl⟩

theorem witness_ParametersNeverChange : step (asked .reset) = .next (after (asked .reset)) := rfl

theorem witness_RegistersOtherThanPcInfluenceNothing :
    step (at_ 0x8000 0 [(0x8000, 0xA9)]) = .next (after (at_ 0x8000 0 [(0x8000, 0xA9)])) := rfl

theorem witness_PictureBuffersInfluenceNothing :
    step { at_ 0x8000 0 [] with cycle := 340, scanline := 261 } =
      .next (after { at_ 0x8000 0 [] with cycle := 340, scanline := 261 }) := rfl

theorem witness_CountersAreInvisibleToPrograms :
    step (at_ 0x8000 0 [(0x8000, 0xEA)]) = .next (after (at_ 0x8000 0 [(0x8000, 0xEA)])) := rfl

/-- A running state in the last scan position, and a load. -/
theorem witness_EveryStepKeepsTheInvariant :
    ({ at_ 0x8000 0 [] with cycle := 340, scanline := 261 }).Inv ∧
      step { at_ 0x8000 0 [] with cycle := 340, scanline := 261 } =
        .next (after { at_ 0x8000 0 [] with cycle := 340, scanline := 261 }) ∧
      (asked (.loadROM imageL5)).Inv ∧
      step (asked (.loadROM imageL5)) = .next (after (asked (.loadROM imageL5))) :=
  ⟨by decide, rfl, by decide, rfl⟩

/-- Each range ends at the end of the store; the copy's source ends where its destination begins. -/
theorem witness_RangeOperationsAreTheLoops :
    Memory.wf 8 [(1, 5), (7, 6)] = true ∧ 6 + 2 ≤ 8 ∧ 5 + [1, 0, (3 : Byte)].length ≤ 8 ∧ 0 + 4 ≤ 4 ∧ 4 + 4 ≤ 8 := by
  decide

theorem witness_EqualReadsMakeEqualStores :
    Memory.wf 8 [(1, 5)] = true ∧ ∀ a, Memory.read [(1, 5)] a = Memory.read (Memory.write [] 1 5) a :=
  ⟨by decide, fun _ => rfl⟩

/-- At the top of memory, where the three bytes wrap, and one byte apart from them. -/
theorem witness_WithFetchWordIsWhatIsFetched :
    (at_ 0xFFFF 0 []).mem.wf 65536 = true ∧ 2 ≠ (at_ 0xFFFF 0 []).pc.toNat ∧
      2 ≠ ((at_ 0xFFFF 0 []).pc.toNat + 1) % 65536 ∧ 2 ≠ ((at_ 0xFFFF 0 []).pc.toNat + 2) % 65536 := by decide

end Sys2Proof.Tests
end

namespace Sys2Proof.Machine

/-! ### The open parameters (00_scope.md R8) through every step -/

/-- Neither an iteration nor an operation of the host writes `config`. -/
theorem config_of_step {s t : State} (h : step s = .next t) : t.config = s.config := by
  obtain ⟨-, npc, v, hv, rfl⟩ | rfl | ⟨img, ops, -, -, rfl⟩ | ⟨img, ops, -, -, rfl⟩ |
    ⟨ops, -, rfl⟩ | ⟨ops, -, rfl⟩ | ⟨ops, -, rfl⟩ := step_outcomes h
  · -- an iteration: its instruction may have written `A`
    obtain rfl | ⟨n, rfl⟩ := hv <;> simp
  · -- an idle engine with nothing issued
    rfl
  · -- a load that fails with `TooSmall`
    simp
  · -- a load that places its image, marks and resets
    simp
  · -- `reset`
    simp
  · -- `runFrame`
    simp
  · -- `isLoaded`
    simp

/-- Settles O49: a case split over everything a step can do. -/
theorem parametersNeverChange : Obligations.ParametersNeverChange :=
  fun _ _ => config_of_step

end Sys2Proof.Machine

namespace Sys2Proof.Machine

/-! ### The kinds of step -/

/-- The next step takes up a `loadROM` that succeeds (40_cartridge_loader.md R131). -/
abbrev State.takesLoad (s : State) : Prop := ∃ img ops, s.issued (.loadROM img) ops ∧ 16 ≤ img.length

/-- The next step takes up an operation that ends in a reset: `reset()`, or a `loadROM` that succeeds. -/
abbrev State.takesReset (s : State) : Prop :=
  ∃ op ops, s.issued op ops ∧ (op = .reset ∨ ∃ img, op = .loadROM img ∧ 16 ≤ img.length)

/-- `step_outcomes` with the cases joined in which the spec's own record (10_state.md R20) does not change: a step is
an iteration, bookkeeping, a load or a reset. -/
theorem step_kinds {s t : State} (h : step s = .next t) :
    (∃ pc a, t = ({ s with pc := pc, a := a } : State).afterCpu) ∨
    (∃ r q o, t = { s with remaining := r, pending := q, outputs := o }) ∨
    (∃ img ops, s.issued (.loadROM img) ops ∧ 16 ≤ img.length ∧
      t = (s.takeOp.placeImage img).markLoaded.resetEngine.emit (.loadResult .success)) ∨
    (∃ ops, s.issued .reset ops ∧ t = s.takeOp.resetEngine) := by
  obtain ⟨-, npc, v, hv, rfl⟩ | rfl | ⟨img, ops, -, -, rfl⟩ | hload | hreset | ⟨ops, -, rfl⟩ | ⟨ops, -, rfl⟩ :=
    step_outcomes h
  · obtain rfl | ⟨n, rfl⟩ := hv
    · exact .inl ⟨_, _, rfl⟩
    · exact .inl ⟨_, _, rfl⟩
  · exact .inr (.inl ⟨_, _, _, rfl⟩)
  · exact .inr (.inl ⟨_, _, _, rfl⟩)
  · exact .inr (.inr (.inl hload))
  · exact .inr (.inr (.inr hreset))
  · exact .inr (.inl ⟨s.takeOp.beginRunFrame.remaining, s.pending.tail, s.outputs, by ext1 <;> simp⟩)
  · exact .inr (.inl ⟨_, _, _, rfl⟩)

/-- A step that takes up no successful load leaves `loaded` and `vram`. -/
theorem step_loads_or_keeps {s t : State} (h : step s = .next t) :
    (s.takesLoad ∧ t.loaded = true) ∨ (t.loaded = s.loaded ∧ t.vram = s.vram) := by
  obtain ⟨pc, a, rfl⟩ | ⟨r, q, o, rfl⟩ | ⟨img, ops, hi, hl, rfl⟩ | ⟨ops, -, rfl⟩ := step_kinds h
  · exact .inr (by simp)
  · exact .inr ⟨rfl, rfl⟩
  · exact .inl ⟨⟨img, ops, hi, hl⟩, rfl⟩
  · exact .inr ⟨rfl, rfl⟩

/-- No step writes `oam` or `pal` (10_state.md R31, R32). -/
theorem oam_pal_of_step {s t : State} (h : step s = .next t) : t.oam = s.oam ∧ t.pal = s.pal := by
  obtain ⟨pc, a, rfl⟩ | ⟨r, q, o, rfl⟩ | ⟨img, ops, -, -, rfl⟩ | ⟨ops, -, rfl⟩ := step_kinds h
  · simp
  · exact ⟨rfl, rfl⟩
  · simp
  · exact ⟨rfl, rfl⟩

@[simp] theorem State.afterCpu_cycle (s : State) : s.afterCpu.cycle = s.ppuStep.cycle := rfl
@[simp] theorem State.afterCpu_scanline (s : State) : s.afterCpu.scanline = s.ppuStep.scanline := rfl
@[simp] theorem State.afterCpu_frame (s : State) : s.afterCpu.frame = s.ppuStep.frame := rfl

@[simp] theorem State.afterCpu_mem (s : State) : s.afterCpu.mem = s.mem.write s.inputAddr s.inputByte := by
  simp [State.afterCpu]

/-- A picture-unit step advances `frame` by at most one (45_ppu_step.md R203). -/
theorem State.ppuStep_frame_bounds (s : State) : s.frame ≤ s.ppuStep.frame ∧ s.ppuStep.frame ≤ s.frame + 1 := by
  obtain ⟨-, e⟩ | ⟨-, -, e⟩ | ⟨-, -, e⟩ := s.ppuStep_cases <;> simp [e]

/-- Handing something out after a reset is the same as handing it out before. -/
theorem State.emit_resetEngine (s : State) (o : Output) : s.resetEngine.emit o = (s.emit o).resetEngine := rfl

/-- A step either ends in the reset operation or leaves `SP`, `X`, `Y` and `P` and advances `frame` by at most one. -/
theorem step_resets_or_keeps {s t : State} (h : step s = .next t) :
    (s.takesReset ∧ ∃ u : State, t = u.resetEngine) ∨
    ((t.sp = s.sp ∧ t.x = s.x ∧ t.y = s.y ∧ t.p = s.p) ∧ s.frame ≤ t.frame ∧ t.frame ≤ s.frame + 1) := by
  obtain ⟨pc, a, rfl⟩ | ⟨r, q, o, rfl⟩ | ⟨img, ops, hi, hl, rfl⟩ | ⟨ops, hi, rfl⟩ := step_kinds h
  · exact .inr ⟨by simp, State.ppuStep_frame_bounds { s with pc := pc, a := a }⟩
  · exact .inr ⟨⟨rfl, rfl, rfl, rfl⟩, le_rfl, Nat.le_succ _⟩
  · exact .inl ⟨⟨_, ops, hi, .inr ⟨img, rfl, hl⟩⟩, _, State.emit_resetEngine _ _⟩
  · exact .inl ⟨⟨_, ops, hi, .inl rfl⟩, s.takeOp, rfl⟩

/-! ### Every operation keeps the invariant (10_state.md R42) -/

namespace State.Inv

variable {s : State}

theorem takeOp (h : s.Inv) : s.takeOp.Inv := h

theorem emit (h : s.Inv) (o : Output) : (s.emit o).Inv := h

theorem finishStep (h : s.Inv) (npc : Nat) : (s.finishStep npc).Inv := h

theorem setReg_a (h : s.Inv) (n : Byte) : (s.setReg .a n).Inv := h

theorem resetEngine (h : s.Inv) : s.resetEngine.Inv := by
  obtain ⟨-, hstores, hzero, -, hrun⟩ := h
  exact ⟨⟨Nat.succ_pos _, Nat.succ_pos _⟩, hstores, hzero, ⟨rfl, rfl, rfl, rfl⟩, hrun⟩

theorem markLoaded (h : s.Inv) : s.markLoaded.Inv := by
  obtain ⟨hcount, hstores, hzero, hregs, hle, -⟩ := h
  exact ⟨hcount, hstores, hzero, hregs, hle, fun _ => rfl⟩

theorem placeImage (h : s.Inv) (img : List Byte) : (s.placeImage img).Inv := by
  obtain ⟨hcount, ⟨hmem, hvram, hoam, hpal⟩, hzero, hregs, hrun⟩ := h
  rw [State.placeImage_eta]
  exact ⟨hcount, ⟨State.placeImage_mem_wf img hmem, State.placeImage_vram_wf img hvram, hoam, hpal⟩, hzero,
    hregs, hrun⟩

theorem beginRunFrame (h : s.Inv) : s.beginRunFrame.Inv := by
  unfold State.beginRunFrame
  split
  case isTrue hloaded =>
    obtain ⟨hcount, hstores, hzero, hregs, -⟩ := h
    exact ⟨hcount, hstores, hzero, hregs, le_rfl, fun _ => hloaded⟩
  case isFalse => exact h

end State.Inv

/-- The counters wrap before they leave their ranges (45_ppu_step.md R201, R202). -/
theorem State.ppuStep_countersInRange {s : State} (h : s.countersInRange) : s.ppuStep.countersInRange := by
  obtain ⟨hcycle, hline⟩ := h
  obtain ⟨hc, e⟩ | ⟨-, hl, e⟩ | ⟨-, -, e⟩ := s.ppuStep_cases
  · rw [e]; exact ⟨Nat.lt_of_le_of_ne hcycle hc, hline⟩
  · rw [e]; exact ⟨Nat.succ_pos _, Nat.lt_of_le_of_ne hline hl⟩
  · rw [e]; exact ⟨Nat.succ_pos _, Nat.succ_pos _⟩

theorem State.Inv.afterCpu {s : State} (h : s.Inv) : s.afterCpu.Inv := by
  obtain ⟨hcount, ⟨hmem, hvram, hoam, hpal⟩, hzero, hregs, hle, hloaded⟩ := h
  have hcount' : s.afterCpu.countersInRange := State.ppuStep_countersInRange hcount
  have hmem' : s.afterCpu.mem.wf memSize = true := by
    rw [State.afterCpu_mem]; exact Memory.write_wf _ s.inputAddr_lt hmem
  refine ⟨hcount', ⟨hmem', ?_⟩, ?_, ?_, ?_, fun hr => ?_⟩
  · simpa using ⟨hvram, hoam, hpal⟩
  · simpa using hzero
  · simpa [State.inertRegisters] using hregs
  · rw [State.afterCpu_remaining]; omega
  · rw [State.afterCpu_remaining] at hr
    rw [State.afterCpu_loaded]
    exact hloaded (by omega)

/-- Settles O54: every operation that a step is made of keeps the invariant. -/
theorem everyStepKeepsTheInvariant : Obligations.EveryStepKeepsTheInvariant := by
  intro s t hinv h
  obtain ⟨-, npc, v, hv, rfl⟩ | rfl | ⟨img, ops, -, -, rfl⟩ | ⟨img, ops, -, -, rfl⟩ |
    ⟨ops, -, rfl⟩ | ⟨ops, -, rfl⟩ | ⟨ops, -, rfl⟩ := step_outcomes h
  · -- an iteration: its instruction may have written `A`
    obtain rfl | ⟨n, rfl⟩ := hv
    · exact (hinv.finishStep npc).afterCpu
    · exact ((hinv.setReg_a n).finishStep npc).afterCpu
  · -- an idle engine with nothing issued
    exact hinv
  · -- a load that fails with `TooSmall`
    exact hinv.takeOp.emit _
  · exact (hinv.takeOp.placeImage img).markLoaded.resetEngine.emit _
  · exact hinv.takeOp.resetEngine
  · exact hinv.takeOp.beginRunFrame
  · exact hinv.takeOp.emit _

/-- Settles O44: a step that is no successful load keeps the flag. -/
theorem onlyASuccessfulLoadSetsLoaded : Obligations.OnlyASuccessfulLoadSetsLoaded := by
  intro s t h
  obtain ⟨hload, hset⟩ | ⟨hkept, -⟩ := step_loads_or_keeps h
  · exact ⟨fun _ => hset, fun _ _ => hload⟩
  · exact ⟨fun hs => hkept.trans hs, fun hs ht => absurd ht (by simp [hkept, hs])⟩

/-- Settles O46: a step that is no successful load keeps `vram`. -/
theorem onlyLoadWritesVideoRam : Obligations.OnlyLoadWritesVideoRam := by
  intro s t h
  obtain ⟨hoam, hpal⟩ := oam_pal_of_step h
  refine ⟨hoam, hpal, fun hne => ?_⟩
  obtain ⟨hload, -⟩ | ⟨-, hkept⟩ := step_loads_or_keeps h
  · exact hload
  · exact absurd hkept hne

/-- Settles O47: a step that changes one of these registers ends in the reset operation. -/
theorem onlyResetWritesInertRegisters : Obligations.OnlyResetWritesInertRegisters := by
  intro s t h
  obtain ⟨hreset, u, rfl⟩ | ⟨hregs, -⟩ := step_resets_or_keeps h
  · exact .inr ⟨⟨rfl, rfl, rfl, rfl⟩, hreset⟩
  · exact .inl hregs

/-- Settles O48: a step that lowers `frame` ends in the reset operation. -/
theorem frameCounterIsMonotonicBetweenResets : Obligations.FrameCounterIsMonotonicBetweenResets := by
  intro s t h
  obtain ⟨hreset, u, rfl⟩ | ⟨-, hframe⟩ := step_resets_or_keeps h
  · exact .inr ⟨rfl, hreset⟩
  · exact .inl hframe

/-! ### Fields that influence nothing but themselves -/

/-- `f i s` is `s` with some fields overwritten by `i`. Every part of a step from the overwritten state gives what it
gives from `s`, up to what stands in these fields then: no part reads them into another field. -/
structure Uninfluential {ι : Type} (f : ι → State → State) : Prop where
  remaining : ∀ i s, (f i s).remaining = s.remaining
  pending   : ∀ i s, (f i s).pending = s.pending
  takeOp    : ∀ i s, (f i s).takeOp = f i s.takeOp
  hostOp    : ∀ i s op, ∃ j, (f i s).hostOp op = f j (s.hostOp op)
  cpuStep   : ∀ i s, ∃ j u, Machine.cpuStep s = .next u ∧ Machine.cpuStep (f i s) = .next (f j u)
  afterCpu  : ∀ i s, ∃ j, (f i s).afterCpu = f j s.afterCpu

/-- An engine with nothing issued stays as it is (60_exceptions.md R272). -/
theorem State.hostStep_of_nil {s : State} (h : s.pending = []) : s.hostStep = s := by
  simp [State.hostStep, h]

theorem State.hostStep_of_cons {s : State} {op : HostOp} {ops : List HostOp} (h : s.pending = op :: ops) :
    s.hostStep = s.takeOp.hostOp op := by
  simp [State.hostStep, h]

theorem step_of_idle {s : State} (h : s.remaining = 0) : step s = .next s.hostStep := by
  simp [step, h]

section
variable {ι : Type} {f : ι → State → State}

theorem Uninfluential.hostStep (hf : Uninfluential f) (i : ι) (s : State) :
    ∃ j, (f i s).hostStep = f j s.hostStep := by
  cases hp : s.pending with
  | nil =>
    rw [State.hostStep_of_nil hp, State.hostStep_of_nil ((hf.pending i s).trans hp)]
    exact ⟨i, rfl⟩
  | cons op ops =>
    rw [State.hostStep_of_cons hp, State.hostStep_of_cons ((hf.pending i s).trans hp), hf.takeOp]
    exact hf.hostOp i s.takeOp op

/-- A step from the overwritten state completes too, and its result differs in the overwritten fields only. -/
theorem Uninfluential.step (hf : Uninfluential f) (i : ι) {s t : State} (h : Machine.step s = .next t) :
    ∃ j, Machine.step (f i s) = .next (f j t) := by
  obtain ⟨hr, rfl⟩ | ⟨hr, u, hu, rfl⟩ := step_cases h
  · obtain ⟨j, e⟩ := hf.hostStep i s
    exact ⟨j, by rw [step_of_idle ((hf.remaining i s).trans hr), e]⟩
  · obtain ⟨j, v, hv, hu'⟩ := hf.cpuStep i s
    obtain rfl : u = v := Host.Outcome.next.inj (hu.symm.trans hv)
    obtain ⟨k, e⟩ := hf.afterCpu j u
    exact ⟨k, by rw [step_of_running (by rwa [hf.remaining]) hu', e]⟩

end

/-! ### The 8-bit registers -/

/-- The 8-bit registers together (00_scope.md R12). -/
structure RegFile where
  sp : Byte
  a  : Byte
  x  : Byte
  y  : Byte
  p  : Byte

/-- The values that reset gives the registers (70_reset_and_hazards.md R293). -/
def RegFile.reset : RegFile := { sp := spReset, a := 0, x := 0, y := 0, p := pReset }

/-- The state with other values in the 8-bit registers. -/
@[simps] def State.withRegs (r : RegFile) (s : State) : State :=
  { s with sp := r.sp, a := r.a, x := r.x, y := r.y, p := r.p }

section
variable (r : RegFile) (s : State)

theorem State.withRegs_placeImage (img : List Byte) :
    (s.withRegs r).placeImage img = (s.placeImage img).withRegs r := by
  ext1 <;> simp [State.placeImage_mem, State.placeImage_vram]

theorem State.withRegs_beginRunFrame : (s.withRegs r).beginRunFrame = s.beginRunFrame.withRegs r := by
  ext1 <;> simp

/-- Reset writes every register and reads none. -/
theorem State.withRegs_resetEngine : (s.withRegs r).resetEngine = s.resetEngine.withRegs .reset := rfl

/-- So it does at the end of a load. -/
theorem State.withRegs_finishLoad (o : Output) :
    (s.withRegs r).markLoaded.resetEngine.emit o = (s.markLoaded.resetEngine.emit o).withRegs .reset := rfl

theorem State.withRegs_loadROM (img : List Byte) :
    ∃ q, (s.withRegs r).loadROM img = (s.loadROM img).withRegs q := by
  unfold State.loadROM
  split
  · exact ⟨r, rfl⟩
  · rw [State.withRegs_placeImage]
    exact ⟨.reset, State.withRegs_finishLoad r _ _⟩

theorem State.withRegs_hostOp (op : HostOp) : ∃ q, (s.withRegs r).hostOp op = (s.hostOp op).withRegs q := by
  cases op with
  | loadROM img => exact s.withRegs_loadROM r img
  | reset => exact ⟨_, s.withRegs_resetEngine r⟩
  | runFrame => exact ⟨_, s.withRegs_beginRunFrame r⟩
  | isLoaded => exact ⟨r, rfl⟩

theorem State.withRegs_ppuStep : (s.withRegs r).ppuStep = s.ppuStep.withRegs r := by
  simp only [State.ppuStep, apply_ite (State.withRegs r)]
  rfl

theorem State.withRegs_afterCpu : (s.withRegs r).afterCpu = s.afterCpu.withRegs r := by
  rw [State.afterCpu, State.withRegs_ppuStep]
  rfl

/-- `LDA` alone writes a register, and no instruction reads one. -/
theorem State.withRegs_exec (i : Instr) :
    ∃ q u, exec i s = .next u ∧ exec i (s.withRegs r) = .next (u.withRegs q) := by
  cases i with
  | lda n => exact ⟨{ r with a := n }, _, rfl, rfl⟩
  | nop => exact ⟨r, _, rfl, rfl⟩
  | jmp target => exact ⟨r, _, rfl, rfl⟩
  | dnop opcode => exact ⟨r, _, rfl, rfl⟩

end

theorem withRegs_uninfluential : Uninfluential State.withRegs where
  remaining _ _ := rfl
  pending _ _ := rfl
  takeOp _ _ := rfl
  hostOp r s op := s.withRegs_hostOp r op
  cpuStep r s := s.withRegs_exec r s.fetchInstr
  afterCpu r s := ⟨r, s.withRegs_afterCpu r⟩

/-- Settles O50: no part of a step reads one of these registers into another field. -/
theorem registersOtherThanPcInfluenceNothing : Obligations.RegistersOtherThanPcInfluenceNothing := by
  intro s t sp a x y p h
  obtain ⟨q, hq⟩ := withRegs_uninfluential.step ⟨sp, a, x, y, p⟩ h
  exact ⟨t.withRegs q, hq, rfl⟩

/-! ### The picture-unit buffers -/

/-- The three buffers together (20_memory.md R60). -/
structure PictureBuffers where
  vram : Memory
  oam  : Memory
  pal  : Memory

/-- The state with other contents in the buffers. -/
@[simps] def State.withBuffers (b : PictureBuffers) (s : State) : State :=
  { s with vram := b.vram, oam := b.oam, pal := b.pal }

section
variable (b : PictureBuffers) (s : State)

/-- A load writes `vram`, from the image and its own earlier content. -/
theorem State.withBuffers_placeImage (img : List Byte) :
    (s.withBuffers b).placeImage img =
      (s.placeImage img).withBuffers { b with vram := ((s.withBuffers b).placeImage img).vram } := by
  ext1 <;> simp [State.placeImage_mem]

theorem State.withBuffers_beginRunFrame : (s.withBuffers b).beginRunFrame = s.beginRunFrame.withBuffers b := by
  ext1 <;> simp

theorem State.withBuffers_finishLoad (o : Output) :
    (s.withBuffers b).markLoaded.resetEngine.emit o = (s.markLoaded.resetEngine.emit o).withBuffers b := rfl

theorem State.withBuffers_loadROM (img : List Byte) :
    ∃ c, (s.withBuffers b).loadROM img = (s.loadROM img).withBuffers c := by
  unfold State.loadROM
  split
  · exact ⟨b, rfl⟩
  · rw [State.withBuffers_placeImage]
    exact ⟨_, State.withBuffers_finishLoad _ _ _⟩

theorem State.withBuffers_hostOp (op : HostOp) :
    ∃ c, (s.withBuffers b).hostOp op = (s.hostOp op).withBuffers c := by
  cases op with
  | loadROM img => exact s.withBuffers_loadROM b img
  | reset => exact ⟨b, rfl⟩
  | runFrame => exact ⟨b, s.withBuffers_beginRunFrame b⟩
  | isLoaded => exact ⟨b, rfl⟩

/-- The picture-unit step makes its framebuffer from `mem` and `frame` (46_framebuffer.md R215). -/
theorem State.withBuffers_ppuStep : (s.withBuffers b).ppuStep = s.ppuStep.withBuffers b := by
  simp only [State.ppuStep, apply_ite (State.withBuffers b)]
  rfl

theorem State.withBuffers_afterCpu : (s.withBuffers b).afterCpu = s.afterCpu.withBuffers b := by
  rw [State.afterCpu, State.withBuffers_ppuStep]
  rfl

theorem State.withBuffers_exec (i : Instr) :
    ∃ u, exec i s = .next u ∧ exec i (s.withBuffers b) = .next (u.withBuffers b) := by
  cases i with
  | nop => exact ⟨_, rfl, rfl⟩
  | jmp target => exact ⟨_, rfl, rfl⟩
  | lda n => exact ⟨_, rfl, rfl⟩
  | dnop opcode => exact ⟨_, rfl, rfl⟩

end

theorem withBuffers_uninfluential : Uninfluential State.withBuffers where
  remaining _ _ := rfl
  pending _ _ := rfl
  takeOp _ _ := rfl
  hostOp b s op := s.withBuffers_hostOp b op
  cpuStep b s := ⟨b, s.withBuffers_exec b s.fetchInstr⟩
  afterCpu b s := ⟨b, s.withBuffers_afterCpu b⟩

/-- Settles O51: no part of a step reads one of these buffers into another field. -/
theorem pictureBuffersInfluenceNothing : Obligations.PictureBuffersInfluenceNothing := by
  intro s t vram oam pal h
  obtain ⟨c, hc⟩ := withBuffers_uninfluential.step ⟨vram, oam, pal⟩ h
  exact ⟨t.withBuffers c, hc, rfl⟩

/-! ### Power-on and reset values -/

/-- Over zero memory the vector reads zero, so the reset falls back to 0x8000 (70_reset_and_hazards.md R292). -/
theorem State.resetPc_powerOn (c : Config) : (State.powerOn c).resetPc = resetFallback := by
  simp [State.resetPc, State.resetVector, State.powerOn, Memory.readLE]

/-- Settles O33: all that `reset()` writes holds its reset value at power-on. -/
theorem powerOnIsResetOverZeroMemory : Obligations.PowerOnIsResetOverZeroMemory := by
  intro c
  refine ⟨?_, rfl, rfl, fun a => ⟨rfl, rfl, rfl, rfl⟩⟩
  rw [State.resetEngine, State.resetPc_powerOn]
  rfl

/-- Settles O34: the reset value of `P` is 0x24, bit by bit. -/
theorem resetStatusHasBitsFiveAndTwo : Obligations.ResetStatusHasBitsFiveAndTwo := by
  intro s k
  rw [State.statusBit, State.resetEngine_p]
  revert k
  decide

/-- A new engine has its counters at zero, its stores empty and no run in progress. -/
theorem State.powerOn_inv (c : Config) : (State.powerOn c).Inv :=
  ⟨⟨Nat.succ_pos _, Nat.succ_pos _⟩, ⟨rfl, rfl, rfl, rfl⟩, ⟨rfl, rfl⟩, ⟨rfl, rfl, rfl, rfl⟩, Nat.zero_le _,
    fun h => absurd rfl h⟩

/-- Settles O53: `State.reset` is the new engine with the default parameters. -/
theorem invariantHoldsAtReset : Obligations.InvariantHoldsAtReset :=
  ⟨State.powerOn_inv Config.defaults, State.powerOn_inv⟩

end Sys2Proof.Machine

namespace Sys2Proof.Machine

/-! ### The canonical form is one per content (20_memory.md R60) -/

/-- The first entry of a canonical store is a byte that is not zero. -/
theorem Memory.read_head_ne_zero {lo hi a : Nat} {v : Byte} {m : Memory}
    (h : Memory.wfFrom lo hi ((a, v) :: m) = true) : Memory.read ((a, v) :: m) a ≠ 0 := by
  obtain ⟨-, -, hv, -⟩ := (Memory.wfFrom_cons ..).mp h
  rwa [Memory.read_cons, if_pos rfl]

/-- Nothing below the first entry of a canonical store reads other than zero. -/
theorem Memory.head_le_of_read_ne_zero {lo hi a b : Nat} {v : Byte} {m : Memory}
    (h : Memory.wfFrom lo hi ((a, v) :: m) = true) (hb : Memory.read ((a, v) :: m) b ≠ 0) : a ≤ b := by
  obtain ⟨-, hhi, hv, hm⟩ := (Memory.wfFrom_cons ..).mp h
  have hfrom : Memory.wfFrom a hi ((a, v) :: m) = true := (Memory.wfFrom_cons ..).mpr ⟨le_rfl, hhi, hv, hm⟩
  by_contra hlt
  exact hb (Memory.read_outside hfrom (.inl (Nat.lt_of_not_le hlt)))

theorem Memory.eq_of_read_eq {lo hi : Nat} {m m' : Memory} (h : Memory.wfFrom lo hi m = true)
    (h' : Memory.wfFrom lo hi m' = true) (hread : ∀ a, m.read a = m'.read a) : m = m' := by
  induction m generalizing lo m' with
  | nil =>
    cases m' with
    | nil => rfl
    | cons c' m' => exact absurd (hread c'.1).symm (Memory.read_head_ne_zero h')
  | cons c m ih =>
    obtain ⟨a, v⟩ := c
    cases m' with
    | nil => exact absurd (hread a) (Memory.read_head_ne_zero h)
    | cons c' m' =>
      obtain ⟨b, w⟩ := c'
      have hab : a = b := le_antisymm
        (Memory.head_le_of_read_ne_zero h (hread b ▸ Memory.read_head_ne_zero h'))
        (Memory.head_le_of_read_ne_zero h' (hread a ▸ Memory.read_head_ne_zero h))
      subst hab
      have hvw : v = w := by simpa using hread a
      obtain ⟨-, -, -, hm⟩ := (Memory.wfFrom_cons ..).mp h
      obtain ⟨-, -, -, hm'⟩ := (Memory.wfFrom_cons ..).mp h'
      have htail : ∀ k, Memory.read m k = Memory.read m' k := fun k => by
        by_cases hk : a = k
        · -- neither tail reaches down to the address of the head
          have hk' : k < a + 1 := hk ▸ Nat.lt_succ_self a
          rw [Memory.read_outside hm (.inl hk'), Memory.read_outside hm' (.inl hk')]
        · simpa [hk] using hread k
      rw [hvw, ih hm hm' htail]

/-- Settles O56: the stores have the same first entry, and their tails read alike. -/
theorem equalReadsMakeEqualStores : Obligations.EqualReadsMakeEqualStores :=
  fun _ _ _ => Memory.eq_of_read_eq

/-! ### One iteration (47_frame_loop_and_host.md R231) -/

/-- A running engine completes its iteration, and its instruction writes `PC` and `A` at most. -/
theorem step_iterates {s : State} (hr : s.remaining ≠ 0) :
    ∃ pc a, step s = .next ({ s with pc := pc, a := a } : State).afterCpu := by
  obtain ⟨npc, h | ⟨n, h⟩⟩ := cpuStep_cases s
  · exact ⟨_, _, step_of_running hr h⟩
  · exact ⟨_, _, step_of_running hr h⟩

/-- A framebuffer is handed out exactly where the scan wraps, with the incremented frame counter
(45_ppu_step.md R203). -/
theorem State.ppuStep_outputs (s : State) :
    s.ppuStep.outputs =
      if s.cycle = 340 ∧ s.scanline = 261 then .renderFrame (framebuffer s.mem (s.frame + 1)) :: s.outputs
      else s.outputs := by
  obtain ⟨hc, e⟩ | ⟨hc, hl, e⟩ | ⟨hc, hl, e⟩ := s.ppuStep_cases
  · rw [e, if_neg (by omega)]; rfl
  · rw [e, if_neg (by omega)]; rfl
  · rw [e, if_pos (by omega)]; rfl

@[simp] theorem State.afterCpu_outputs (s : State) : s.afterCpu.outputs = s.ppuStep.outputs := rfl
@[simp] theorem State.afterCpu_inputs (s : State) : s.afterCpu.inputs = s.inputs.tail := by
  simp [State.afterCpu]
@[simp] theorem State.afterCpu_polls (s : State) : s.afterCpu.polls = s.polls + 1 := by
  simp [State.afterCpu]

/-- Settles O16: what follows the instruction reads nothing that the instruction wrote. -/
theorem iterationOrderOfEffects : Obligations.IterationOrderOfEffects := by
  intro s hr
  obtain ⟨pc, a, h⟩ := step_iterates hr
  exact ⟨_, h, State.afterCpu_mem _, State.ppuStep_outputs _, State.afterCpu_inputs _, State.afterCpu_polls _,
    State.afterCpu_remaining _, State.afterCpu_pending _, State.afterCpu_loaded _⟩

/-- An iteration leaves the input byte at `INPUT_REG_ADDR` and every other byte as it was. -/
theorem State.read_afterCpu {s : State} (h : s.mem.wf memSize = true) (a : Nat) :
    s.afterCpu.mem.read a = if a = s.inputAddr then s.inputByte else s.mem.read a := by
  rw [State.afterCpu_mem, Memory.read_write h]

theorem State.fetchOpcode_afterCpu {s : State} (h : s.mem.wf memSize = true) :
    s.afterCpu.fetchOpcode = if s.pc = s.config.inputRegAddr then s.inputByte else s.mem.read s.pc.toNat := by
  rw [State.fetchOpcode, State.loadByte, State.afterCpu_pc, State.read_afterCpu h]
  exact if_congr BitVec.toNat_inj rfl rfl

/-- Settles O17: the fetch reads the memory that the input write leaves. -/
theorem nextFetchSeesTheInputByte : Obligations.NextFetchSeesTheInputByte := by
  intro s t hr hmem h
  obtain ⟨pc, a, e⟩ := step_iterates hr
  obtain rfl := Host.Outcome.next.inj (e.symm.trans h)
  rw [State.afterCpu_pc]
  exact State.fetchOpcode_afterCpu (s := { s with pc := pc, a := a }) hmem

/-! ### Who writes memory (20_memory.md R61) -/

section
variable {m : Memory} {bs : List Byte}

/-- Bytes that fit the program region, placed over it once it is cleared (40_cartridge_loader.md R123, R126). -/
theorem Memory.placeProgram_wf (h : m.wf memSize = true) (hbs : bs.length ≤ prgCap) :
    ((m.zeroRange romBase prgCap).place romBase bs).wf memSize = true :=
  Memory.place_wf (Nat.add_le_add_left hbs romBase) (Memory.zeroRange_wf _ _ h)

theorem Memory.read_placeProgram_outside (h : m.wf memSize = true) (hbs : bs.length ≤ prgCap) {a : Nat}
    (ha : a < 0x8000 ∨ 0xFFFF < a) : ((m.zeroRange romBase prgCap).place romBase bs).read a = m.read a := by
  rw [Memory.read_place_zeroRange romBase h hbs, if_neg (by simp only [romBase, prgCap]; omega)]

end

/-- The copies of a load stay inside the program region (40_cartridge_loader.md R126, R127, R130). -/
theorem State.read_placeImage_outside {s : State} (h : s.mem.wf memSize = true) (img : List Byte) {a : Nat}
    (ha : a < 0x8000 ∨ 0xFFFF < a) : (s.placeImage img).mem.read a = s.mem.read a := by
  have hprg : (imageSlice img headerLen (prgCount img)).length ≤ prgCap :=
    (imageSlice_length_le ..).trans (prgCount_le img)
  have hgen : (imageSlice img 0 (genericCount img)).length ≤ prgCap :=
    (imageSlice_length_le ..).trans (genericCount_le img)
  rw [State.placeImage_mem]
  split
  · dsimp only
    split
    · -- the mirror begins at 0xC000 and ends with the region
      rw [Memory.read_copyRange _ _ _ (Memory.placeProgram_wf h hprg),
        if_neg (by simp only [mirrorBase, prgUnit]; omega), Memory.read_placeProgram_outside h hprg ha]
    · exact Memory.read_placeProgram_outside h hprg ha
  · exact Memory.read_placeProgram_outside h hgen ha

/-- A step that takes up no successful load changes the input byte at most. -/
theorem step_loads_or_keeps_bytes {s t : State} (hmem : s.mem.wf memSize = true) (h : step s = .next t) :
    (s.takesLoad ∧ ∀ a, a < 0x8000 ∨ 0xFFFF < a → t.mem.read a = s.mem.read a) ∨
    ∀ a, a ≠ s.inputAddr → t.mem.read a = s.mem.read a := by
  obtain ⟨pc, a, rfl⟩ | ⟨r, q, o, rfl⟩ | ⟨img, ops, hi, hl, rfl⟩ | ⟨ops, -, rfl⟩ := step_kinds h
  · exact .inr fun b hb => (State.read_afterCpu (s := { s with pc := pc, a := a }) hmem b).trans (if_neg hb)
  · exact .inr fun _ _ => rfl
  · exact .inl ⟨⟨img, ops, hi, hl⟩, fun _ => State.read_placeImage_outside (s := s.takeOp) hmem img⟩
  · exact .inr fun _ _ => rfl

/-- Settles O45: a byte that changes and is not the input byte changes in a load, and not outside the program region. -/
theorem onlyLoadWritesOtherMemory : Obligations.OnlyLoadWritesOtherMemory := by
  rintro s t a ⟨hmem, -⟩ h hinput hchanged
  obtain ⟨hload, hout⟩ | hkept := step_loads_or_keeps_bytes hmem h
  · have hin : ¬ (a < 0x8000 ∨ 0xFFFF < a) := fun ho => hchanged (hout a ho)
    exact ⟨by omega, by omega, hload⟩
  · exact absurd (hkept a hinput) hchanged

end Sys2Proof.Machine

namespace Sys2Proof

/-! ### Lengths and words of the encoding (30_encoding.md R93, R98) -/

/-- A `DNOP` stands for an instruction when its byte is none of the three named opcodes (30_encoding.md R100). -/
theorem Instr.wellFormed_dnop_iff {b : Byte} :
    (Instr.dnop b).wellFormed = true ↔ b ≠ opNop ∧ b ≠ opJmp ∧ b ≠ opLda := by
  simp [Instr.wellFormed, and_assoc]

theorem instrLength_of_wellFormed_dnop {b : Byte} (h : (Instr.dnop b).wellFormed = true) : instrLength b = 1 := by
  obtain ⟨_, _, hcons, hlen⟩ := Laws.EncodeLength.dnop b h
  cases hcons
  exact hlen.symm

/-- `wordOfBytes_toNat` as an equation of words. -/
theorem wordOfBytes_eq_ofNat (lo hi : Byte) : wordOfBytes lo hi = BitVec.ofNat 16 (lo.toNat + 256 * hi.toNat) := by
  rw [← wordOfBytes_toNat, BitVec.ofNat_toNat, BitVec.setWidth_eq]

/-! ### What decoding answers -/

/-- A sequence with a byte 0 is decoded when it has the length that byte 0 announces (30_encoding.md R98): into the
instruction of its first bytes, with the bytes after that length. -/
theorem decode_cons_eq_ok_iff {opcode : Byte} {tl rest : List Byte} {i : Instr} :
    decode (opcode :: tl) = .ok (i, rest) ↔
      instrLength opcode ≤ tl.length + 1 ∧ decodeBytes opcode (tl.getD 0 0) (tl.getD 1 0) = i ∧
        tl.drop (instrLength opcode - 1) = rest := by
  rw [decode]
  split
  case isTrue hshort => simp [Nat.not_le_of_lt hshort]
  case isFalse hlong => simp [Nat.le_of_not_lt hlong]

theorem decode_nop (rest : List Byte) : decode (opNop :: rest) = .ok (.nop, rest) :=
  decode_cons_eq_ok_iff.mpr ⟨Nat.le_add_left 1 _, rfl, rfl⟩

theorem decode_jmp (lo hi : Byte) (rest : List Byte) :
    decode (opJmp :: lo :: hi :: rest) = .ok (.jmp (wordOfBytes lo hi), rest) :=
  decode_cons_eq_ok_iff.mpr ⟨Nat.le_add_left 3 _, rfl, rfl⟩

theorem decode_lda (imm : Byte) (rest : List Byte) : decode (opLda :: imm :: rest) = .ok (.lda imm, rest) :=
  decode_cons_eq_ok_iff.mpr ⟨Nat.le_add_left 2 _, rfl, rfl⟩

theorem decode_dnop {b : Byte} (h : (Instr.dnop b).wellFormed = true) (rest : List Byte) :
    decode (b :: rest) = .ok (.dnop b, rest) := by
  obtain ⟨hnop, hjmp, hlda⟩ := Instr.wellFormed_dnop_iff.mp h
  rw [decode_cons_eq_ok_iff, instrLength_of_wellFormed_dnop h]
  exact ⟨Nat.le_add_left 1 _, by rw [decodeBytes, if_neg hnop, if_neg hjmp, if_neg hlda], rfl⟩

/-- Encoding what the decoder reads gives byte 0 and the operand bytes that its length announces. -/
theorem encode_decodeBytes {opcode : Byte} {tl : List Byte} (hlen : instrLength opcode ≤ tl.length + 1) :
    encode (decodeBytes opcode (tl.getD 0 0) (tl.getD 1 0)) = opcode :: tl.take (instrLength opcode - 1) := by
  obtain ⟨rfl, h⟩ | ⟨rfl, h⟩ | ⟨rfl, h⟩ | ⟨hw, h⟩ := decodeBytes_cases opcode (tl.getD 0 0) (tl.getD 1 0) <;> rw [h]
  · rfl
  · -- `JMP`: both operand bytes are there
    match tl, hlen with
    | lo :: hi :: _, _ => simp [encode, instrLength]
  · -- `LDA`: the operand byte is there
    match tl, hlen with
    | imm :: _, _ => rfl
  · rw [instrLength_of_wellFormed_dnop hw]; rfl

/-! ### The statements -/

/-- Settles O4: for each constructor, decoding reads the bytes that encoding wrote. -/
theorem decodeOfEncodeIsTheInstruction : Obligations.DecodeOfEncodeIsTheInstruction := by
  intro i rest hwf
  cases i with
  | nop => exact decode_nop rest
  | jmp target =>
    calc decode (opJmp :: lowByte target :: highByte target :: rest)
        = .ok (.jmp (wordOfBytes (lowByte target) (highByte target)), rest) := decode_jmp ..
      _ = .ok (.jmp target, rest) := by rw [wordOfBytes_low_high]
  | lda imm => exact decode_lda imm rest
  | dnop b => exact decode_dnop hwf rest

/-- Settles O5: the bytes that encoding gives are those that decoding took off the sequence. -/
theorem encodeOfDecodeIsTheBytesRead : Obligations.EncodeOfDecodeIsTheBytesRead := by
  intro bs rest i h
  cases bs with
  | nil => cases h
  | cons opcode tl =>
    obtain ⟨hlen, rfl, rfl⟩ := decode_cons_eq_ok_iff.mp h
    refine ⟨decodeBytes_wellFormed .., ?_⟩
    rw [encode_decodeBytes hlen, List.cons_append, List.take_append_drop]

/-- Settles O2: one equation of decoding for each line of the opcode map. -/
theorem opcodeMapAssignsEveryByte : Obligations.OpcodeMapAssignsEveryByte := by
  intro b0 b1 b2 rest
  split_ifs with hnop hjmp hlda
  · rw [hnop, decode_nop]
  · rw [hjmp, decode_jmp, wordOfBytes_eq_ofNat]
  · rw [hlda, decode_lda]
  · exact decode_dnop (Instr.wellFormed_dnop_iff.mpr ⟨hnop, hjmp, hlda⟩) _

/-- Settles O3: decoding fails on the empty sequence and on one shorter than its byte 0 announces. -/
theorem decodingNeedsOnlyTheAnnouncedLength : Obligations.DecodingNeedsOnlyTheAnnouncedLength := by
  intro bs
  constructor
  · rintro ⟨i, rest, h⟩
    cases bs with
    | nil => cases h
    | cons opcode tl => exact ⟨opcode, tl, rfl, (decode_cons_eq_ok_iff.mp h).1⟩
  · rintro ⟨opcode, tl, rfl, hlen⟩
    exact ⟨_, _, decode_cons_eq_ok_iff.mpr ⟨hlen, rfl, rfl⟩⟩

/-- Settles O1: the equations of decoding at the bytes of the source's two examples. -/
theorem workedEncodingsDecode : Obligations.WorkedEncodingsDecode :=
  ⟨decode_lda 0x42 [], decode_jmp 0x00 0x90 []⟩

end Sys2Proof

namespace Sys2Proof.Machine

/-! ### The range operations and the loops of the loader (40_cartridge_loader.md R123, R126, R127) -/

/-- `r` is the canonical store that holds `byte i` at `base + i` for every `i < n`, and what `m` holds elsewhere. -/
structure Memory.Overwritten (size base n : Nat) (byte : Nat → Byte) (m r : Memory) : Prop where
  wf   : r.wf size = true
  read : ∀ a, r.read a = if base ≤ a ∧ a < base + n then byte (a - base) else m.read a

/-- The loop that writes `base`, `base + 1`, … in turn, where the byte to write may depend on the store so far. -/
def Memory.writeLoop (m : Memory) (base : Nat) (byte : Memory → Nat → Byte) (n : Nat) : Memory :=
  (List.range n).foldl (fun acc i => acc.write (base + i) (byte acc i)) m

theorem Memory.writeLoop_succ (m : Memory) (base : Nat) (byte : Memory → Nat → Byte) (n : Nat) :
    m.writeLoop base byte (n + 1) =
      (m.writeLoop base byte n).write (base + n) (byte (m.writeLoop base byte n) n) := by
  simp [Memory.writeLoop, List.range_succ]

section
variable {size base n : Nat} {m r : Memory} {v : Nat → Byte}

/-- The canonical form is one per content, so the description leaves one store. -/
theorem Memory.Overwritten.unique {r' : Memory} (h : Memory.Overwritten size base n v m r)
    (h' : Memory.Overwritten size base n v m r') : r = r' :=
  Memory.eq_of_read_eq h.wf h'.wf fun a => (h.read a).trans (h'.read a).symm

/-- Writing the next byte overwrites one byte more. -/
theorem Memory.Overwritten.write (h : Memory.Overwritten size base n v m r) (hfit : base + n < size) :
    Memory.Overwritten size base (n + 1) v m (r.write (base + n) (v n)) where
  wf := Memory.write_wf _ hfit h.wf
  read a := by
    rw [Memory.read_write h.wf, h.read]
    by_cases ha : a = base + n
    · subst ha; simp
    · rw [if_neg ha]
      exact if_congr (by omega) rfl rfl

/-- A loop overwrites its range when each byte it writes is the wanted one; that byte may rest on what lies below the
range, which the loop has not touched. -/
theorem Memory.overwritten_writeLoop {byte : Memory → Nat → Byte} (h : m.wf size = true) (hfit : base + n ≤ size)
    (hbyte : ∀ acc i, i < n → (∀ a < base, acc.read a = m.read a) → byte acc i = v i) :
    Memory.Overwritten size base n v m (m.writeLoop base byte n) := by
  induction n with
  | zero => exact ⟨h, fun a => (if_neg (by omega)).symm⟩
  | succ n ih =>
    have hprev := ih (by omega) fun acc i hi => hbyte acc i (by omega)
    have hlast : byte (m.writeLoop base byte n) n = v n :=
      hbyte _ n (by omega) fun a ha => (hprev.read a).trans (if_neg (by omega))
    rw [Memory.writeLoop_succ, hlast]
    exact hprev.write (by omega)

theorem Memory.overwritten_zeroRange (base n : Nat) (h : m.wf size = true) :
    Memory.Overwritten size base n (fun _ => 0) m (m.zeroRange base n) :=
  ⟨Memory.zeroRange_wf base n h, Memory.read_zeroRange base n h⟩

theorem Memory.overwritten_place {bs : List Byte} (h : m.wf size = true) (hfit : base + bs.length ≤ size) :
    Memory.Overwritten size base bs.length (bs.getD · 0) m (m.place base bs) :=
  ⟨Memory.place_wf hfit h, Memory.read_place base bs h⟩

theorem Memory.overwritten_copyRange {src dst : Nat} (h : m.wf size = true) (hfit : dst + n ≤ size) :
    Memory.Overwritten size dst n (fun i => m.read (i + src)) m (m.copyRange src dst n) :=
  ⟨Memory.copyRange_wf hfit h, Memory.read_copyRange src dst n h⟩

end

/-- Settles O55: each range operation and its loop overwrite the same range with the same bytes. -/
theorem rangeOperationsAreTheLoops : Obligations.RangeOperationsAreTheLoops := by
  intro size m h
  refine ⟨fun base n hfit => ?_, fun base bs hfit => ?_, fun src dst n hsrc hfit => ?_⟩
  · exact (Memory.overwritten_zeroRange base n h).unique
      (Memory.overwritten_writeLoop (byte := fun _ _ => 0) h hfit fun _ _ _ _ => rfl)
  · exact (Memory.overwritten_place h hfit).unique
      (Memory.overwritten_writeLoop (byte := fun _ i => bs.getD i 0) h hfit fun _ _ _ _ => rfl)
  · -- the source ends at or before the destination, so the loop reads bytes it has not written
    refine (Memory.overwritten_copyRange h hfit).unique
      (Memory.overwritten_writeLoop (byte := fun acc i => acc.read (src + i)) h hfit fun acc i hi hlow => ?_)
    rw [hlow _ (by omega), Nat.add_comm]

/-! ### The steps that take up a `loadROM` (40_cartridge_loader.md R132) -/

section
variable {s : State} {img : List Byte} {ops : List HostOp}

theorem step_of_short_load (h : s.issued (.loadROM img) ops) (hl : img.length < 16) :
    step s = .next (s.takeOp.emit (.loadResult .tooSmall)) := by
  rw [step_of_issued h, State.hostOp, State.loadROM, if_pos hl]

theorem step_of_load (h : s.issued (.loadROM img) ops) (hl : 16 ≤ img.length) :
    step s = .next ((s.takeOp.placeImage img).markLoaded.resetEngine.emit (.loadResult .success)) := by
  rw [step_of_issued h, State.hostOp, State.loadROM_of_length hl]

end

/-- Settles O35: one equation of the step on either side of 16 bytes. -/
theorem shortImageIsTooSmall : Obligations.ShortImageIsTooSmall := by
  intro s img ops h
  refine ⟨fun hshort => ?_, fun hlong => ?_⟩
  · rw [step_of_short_load h hshort, State.takeOp_of_issued h]
    rfl
  · exact ⟨_, step_of_load h hlong, by simp⟩

/-- Settles O36: placement changes `mem` and `vram` alone. -/
theorem loadEndsWithLoadedAndReset : Obligations.LoadEndsWithLoadedAndReset := by
  intro s img ops h hl
  refine ⟨_, step_of_load h hl, rfl, ?_⟩
  rw [State.placeImage_eta, State.takeOp_of_issued h]
  rfl

/-! ### What a load leaves in the program region and in `vram` -/

/-- Where in the program the byte at `0x8000 + i` comes from: a program of one unit is there twice
(40_cartridge_loader.md R127). -/
def programIndex (img : List Byte) (i : Nat) : Nat := if prgUnits img = 1 then i % prgUnit else i

/-- Byte `i` of the program region after a load (40_cartridge_loader.md R123, R126, R127, R130). -/
def programByte (c : Config) (img : List Byte) (i : Nat) : Byte :=
  if recognized c img then (imageSlice img headerLen (prgCount img)).getD (programIndex img i) 0
  else (imageSlice img 0 (genericCount img)).getD i 0

/-- Byte `i` of `vram` after a load (40_cartridge_loader.md R123, R128). -/
def graphicsByte (c : Config) (img : List Byte) (i : Nat) : Byte :=
  if recognized c img then (imageSlice img (chrOffset img) (chrCount img)).getD i 0 else 0

theorem recognized_iff {c : Config} {img : List Byte} : recognized c img = true ↔ img.take 4 = c.magic.bytes := by
  simp [recognized]

section
variable {c : Config} {img : List Byte}

theorem programByte_of_generic (h : img.take 4 ≠ c.magic.bytes) (i : Nat) :
    programByte c img i = if i < genericCount img then img.getD i 0 else 0 := by
  rw [programByte, if_neg (mt recognized_iff.mp h), imageSlice_getD, Nat.zero_add]

theorem programByte_of_recognized (h : img.take 4 = c.magic.bytes) (i : Nat) :
    programByte c img i =
      if programIndex img i < prgCount img then img.getD (headerLen + programIndex img i) 0 else 0 := by
  rw [programByte, if_pos (recognized_iff.mpr h), imageSlice_getD]

theorem graphicsByte_of_generic (h : img.take 4 ≠ c.magic.bytes) (i : Nat) : graphicsByte c img i = 0 :=
  if_neg (mt recognized_iff.mp h)

theorem graphicsByte_of_recognized (h : img.take 4 = c.magic.bytes) (i : Nat) :
    graphicsByte c img i = if i < chrCount img then img.getD (chrOffset img + i) 0 else 0 := by
  rw [graphicsByte, if_pos (recognized_iff.mpr h), imageSlice_getD]

/-- Outside the mirror the program lies in its own order. -/
theorem programIndex_of_not_mirror {i : Nat} (h : prgUnits img ≠ 1 ∨ i < prgUnit) : programIndex img i = i := by
  unfold programIndex
  split
  case isTrue hone => exact Nat.mod_eq_of_lt (h.resolve_left (not_not_intro hone))
  case isFalse => rfl

theorem programByte_mirror (h : img.take 4 = c.magic.bytes) (hone : prgUnits img = 1) (i : Nat) :
    programByte c img (0x4000 + i) = programByte c img i := by
  have hindex : programIndex img (0x4000 + i) = programIndex img i := by
    rw [programIndex, programIndex, if_pos hone, if_pos hone, Nat.add_mod_left]
  rw [programByte_of_recognized h, programByte_of_recognized h, hindex]

end

/-- Bytes placed over the cleared program region: the bytes, then zeros (40_cartridge_loader.md R123). -/
theorem Memory.read_placeProgram {m : Memory} {bs : List Byte} {i : Nat} (h : m.wf memSize = true)
    (hbs : bs.length ≤ prgCap) (hi : i < 0x8000) :
    ((m.zeroRange romBase prgCap).place romBase bs).read (0x8000 + i) = bs.getD i 0 := by
  simp only [romBase, prgCap] at hbs ⊢
  rw [Memory.read_place_zeroRange 0x8000 h hbs, if_pos (by omega), Nat.add_sub_cancel_left]

/-- The mirror over a store: the upper half of the program region reads as the lower half
(40_cartridge_loader.md R127). -/
theorem Memory.read_mirror {m : Memory} {i : Nat} (h : m.wf memSize = true) (hi : i < 0x8000) :
    (m.copyRange romBase mirrorBase prgUnit).read (0x8000 + i) = m.read (0x8000 + i % 0x4000) := by
  simp only [romBase, mirrorBase, prgUnit]
  rw [Memory.read_copyRange 0x8000 0xC000 0x4000 h]
  split
  case isTrue hin =>
    have haddr : 0x8000 + i - 0xC000 + 0x8000 = 0x8000 + i % 0x4000 := by omega
    rw [haddr]
  case isFalse hout =>
    rw [Nat.mod_eq_of_lt (by omega)]

section
variable {s : State} (img : List Byte)

theorem State.read_placeImage_region {i : Nat} (h : s.mem.wf memSize = true) (hi : i < 0x8000) :
    (s.placeImage img).mem.read (0x8000 + i) = programByte s.config img i := by
  have hprg : (imageSlice img headerLen (prgCount img)).length ≤ prgCap :=
    (imageSlice_length_le ..).trans (prgCount_le img)
  have hgen : (imageSlice img 0 (genericCount img)).length ≤ prgCap :=
    (imageSlice_length_le ..).trans (genericCount_le img)
  rw [State.placeImage_mem, programByte, programIndex]
  split
  · dsimp only
    split
    · rw [Memory.read_mirror (Memory.placeProgram_wf h hprg) hi,
        Memory.read_placeProgram h hprg ((Nat.mod_le ..).trans_lt hi)]
    · exact Memory.read_placeProgram h hprg hi
  · exact Memory.read_placeProgram h hgen hi

/-- `vram` is written whole, so nothing of its earlier content is left (40_cartridge_loader.md R123). -/
theorem State.read_placeImage_vram (h : s.vram.wf vramSize = true) (i : Nat) :
    (s.placeImage img).vram.read i = graphicsByte s.config img i := by
  have hchr : (imageSlice img (chrOffset img) (chrCount img)).length ≤ vramSize :=
    (imageSlice_length_le ..).trans (chrCount_le img)
  rw [State.placeImage_vram, graphicsByte]
  split
  · rw [Memory.read_place_zeroRange 0 h hchr]
    split
    · rfl
    · rw [Memory.read_outside h (by omega), List.getD_eq_default _ _ (by omega)]
  · rw [Memory.read_zeroRange 0 vramSize h]
    split
    · rfl
    · exact Memory.read_outside h (by omega)

/-- The whole memory map after placement: the image's bytes in the program region, the old bytes outside. -/
theorem State.read_placeImage (h : s.mem.wf memSize = true) (a : Nat) :
    (s.placeImage img).mem.read a =
      if 0x8000 ≤ a ∧ a ≤ 0xFFFF then programByte s.config img (a - 0x8000) else s.mem.read a := by
  split
  case isTrue ha =>
    obtain ⟨i, rfl⟩ := Nat.exists_eq_add_of_le ha.1
    rw [Nat.add_sub_cancel_left]
    exact State.read_placeImage_region img h (Nat.lt_of_add_lt_add_left (Nat.lt_succ_of_le ha.2))
  case isFalse ha => exact State.read_placeImage_outside h img (by omega)

end

/-- A load completes, and what it leaves in the program region and in `vram` depends on the parameters and the image
alone. -/
theorem step_of_load_contents {s : State} {img : List Byte} {ops : List HostOp} (hs : s.storesCanonical)
    (h : s.issued (.loadROM img) ops) (hl : 16 ≤ img.length) :
    ∃ t, step s = .next t ∧
      (∀ i, i < 0x8000 → t.mem.read (0x8000 + i) = programByte s.config img i) ∧
      ∀ i, t.vram.read i = graphicsByte s.config img i := by
  obtain ⟨hmem, hvram, -⟩ := hs
  exact ⟨_, step_of_load h hl, fun _ => State.read_placeImage_region (s := s.takeOp) img hmem,
    State.read_placeImage_vram (s := s.takeOp) img hvram⟩

/-- Settles O37: the bytes of the region and of `vram`, for an image that is not recognized. -/
theorem genericImageIsPlacedWhole : Obligations.GenericImageIsPlacedWhole := by
  intro s img ops hs h hl hgeneric
  obtain ⟨t, ht, hmem, hvram⟩ := step_of_load_contents hs h hl
  exact ⟨t, ht, fun i hi => (hmem i hi).trans (programByte_of_generic hgeneric i),
    fun i => (hvram i).trans (graphicsByte_of_generic hgeneric i)⟩

/-- Settles O38: outside the mirror the program lies in its own order, and the mirror holds it again. -/
theorem recognizedImagePlacesProgramAndMirror : Obligations.RecognizedImagePlacesProgramAndMirror := by
  intro s img ops hs h hl hmagic
  obtain ⟨t, ht, hmem, -⟩ := step_of_load_contents hs h hl
  refine ⟨t, ht, fun i hi hout => ?_, fun hone i hi => ?_⟩
  · have hbyte := programByte_of_recognized hmagic i
    rw [programIndex_of_not_mirror hout] at hbyte
    exact (hmem i hi).trans hbyte
  · have haddr : 0xC000 + i = 0x8000 + (0x4000 + i) := by omega
    calc t.mem.read (0xC000 + i)
        = programByte s.config img (0x4000 + i) := by rw [haddr, hmem _ (by omega)]
      _ = programByte s.config img i := programByte_mirror hmagic hone i
      _ = t.mem.read (0x8000 + i) := (hmem i (by omega)).symm

/-- Settles O39: the bytes of `vram`, for a recognized image. -/
theorem recognizedImagePlacesGraphics : Obligations.RecognizedImagePlacesGraphics := by
  intro s img ops hs h hl hmagic
  obtain ⟨t, ht, -, hvram⟩ := step_of_load_contents hs h hl
  exact ⟨t, ht, fun i => (hvram i).trans (graphicsByte_of_recognized hmagic i)⟩

/-- Settles O40: a failed load changes no byte, and placement stays inside the program region and `vram`. -/
theorem loadLeavesLowMemoryAndOtherBuffers : Obligations.LoadLeavesLowMemoryAndOtherBuffers := by
  rintro s t img ops ⟨hmem, -⟩ h hstep
  obtain hshort | hlong := Nat.lt_or_ge img.length 16
  · obtain rfl := Host.Outcome.next.inj ((step_of_short_load h hshort).symm.trans hstep)
    exact ⟨fun _ _ => rfl, fun _ => rfl, fun _ => rfl, rfl, rfl, by simp [h.2]⟩
  · obtain rfl := Host.Outcome.next.inj ((step_of_load h hlong).symm.trans hstep)
    refine ⟨fun a ha => ?_, by simp, by simp, by simp, by simp, by simp [h.2]⟩
    exact State.read_placeImage_outside (s := s.takeOp) hmem img (.inl ha)

/-- Settles O41: the contents after a load are one function of the parameters and the image. -/
theorem loadForgetsTheEarlierImage : Obligations.LoadForgetsTheEarlierImage := by
  intro s s' t t' img ops ops' hs hs' hc h h' hl hstep hstep'
  obtain ⟨u, hu, hmem, hvram⟩ := step_of_load_contents hs h hl
  obtain ⟨u', hu', hmem', hvram'⟩ := step_of_load_contents hs' h' hl
  obtain rfl := Host.Outcome.next.inj (hu.symm.trans hstep)
  obtain rfl := Host.Outcome.next.inj (hu'.symm.trans hstep')
  refine ⟨fun a hlo hhi => ?_, fun i => ?_⟩
  · obtain ⟨i, rfl⟩ := Nat.exists_eq_add_of_le hlo
    have hi : i < 0x8000 := by omega
    rw [hmem i hi, hmem' i hi, hc]
  · rw [hvram, hvram', hc]

/-! ### Loading an image again -/

section
variable {s t : State} {img : List Byte}

/-- Placement gives one memory map for all states with the same parameters and the same bytes outside the program
region. -/
theorem State.placeImage_mem_congr (hs : s.mem.wf memSize = true) (ht : t.mem.wf memSize = true)
    (hc : s.config = t.config) (hout : ∀ a, a < 0x8000 ∨ 0xFFFF < a → s.mem.read a = t.mem.read a) :
    (s.placeImage img).mem = (t.placeImage img).mem := by
  refine Memory.eq_of_read_eq (State.placeImage_mem_wf img hs) (State.placeImage_mem_wf img ht) fun a => ?_
  rw [State.read_placeImage img hs, State.read_placeImage img ht, hc]
  split
  · rfl
  · exact hout a (by omega)

theorem State.placeImage_vram_congr (hs : s.vram.wf vramSize = true) (ht : t.vram.wf vramSize = true)
    (hc : s.config = t.config) : (s.placeImage img).vram = (t.placeImage img).vram := by
  refine Memory.eq_of_read_eq (State.placeImage_vram_wf img hs) (State.placeImage_vram_wf img ht) fun i => ?_
  rw [State.read_placeImage_vram img hs, State.read_placeImage_vram img ht, hc]

end

section
variable {s : State} {img : List Byte}

theorem State.loadROM_mem (hl : 16 ≤ img.length) : (s.loadROM img).mem = (s.placeImage img).mem := by
  simp [State.loadROM_of_length hl]

theorem State.loadROM_vram (hl : 16 ≤ img.length) : (s.loadROM img).vram = (s.placeImage img).vram := by
  simp [State.loadROM_of_length hl]

theorem State.loadROM_config (hl : 16 ≤ img.length) : (s.loadROM img).config = s.config := by
  simp [State.loadROM_of_length hl]

/-- An engine that has just loaded an image places the same image where it stands already
(40_cartridge_loader.md R134). -/
theorem State.placeImage_loadROM (h : s.storesCanonical) (hl : 16 ≤ img.length) :
    (s.loadROM img).placeImage img = s.loadROM img := by
  obtain ⟨hmem, hvram, -⟩ := h
  have hm : ((s.loadROM img).placeImage img).mem = (s.loadROM img).mem := by
    rw [State.loadROM_mem (s := s) hl]
    refine State.placeImage_mem_congr ?_ hmem (State.loadROM_config hl) fun a ha => ?_
    · rw [State.loadROM_mem hl]; exact State.placeImage_mem_wf img hmem
    · rw [State.loadROM_mem hl]; exact State.read_placeImage_outside hmem img ha
  have hv : ((s.loadROM img).placeImage img).vram = (s.loadROM img).vram := by
    rw [State.loadROM_vram (s := s) hl]
    refine State.placeImage_vram_congr ?_ hvram (State.loadROM_config hl)
    rw [State.loadROM_vram hl]; exact State.placeImage_vram_wf img hvram
  rw [State.placeImage_eta, hm, hv]

end

/-- The end of a load (40_cartridge_loader.md R131), done again, changes nothing but the second result handed out. -/
theorem State.finishLoad_finishLoad (s : State) (o o' : Output) :
    (s.markLoaded.resetEngine.emit o).markLoaded.resetEngine.emit o' = (s.markLoaded.resetEngine.emit o).emit o' := by
  ext1
  case pc =>
    simp only [State.emit_pc, State.resetEngine_pc]
    exact State.resetPc_congr (by simp) (by simp)
  all_goals simp

/-- Settles O42: placing the image again changes nothing, and neither do the flag and the reset after it. -/
theorem loadingTwiceIsLoadingOnce : Obligations.LoadingTwiceIsLoadingOnce := by
  intro s img h hl
  rw [State.loadROM_of_length (s := s.loadROM img) hl, State.placeImage_loadROM h hl, State.loadROM_of_length hl,
    State.finishLoad_finishLoad]

end Sys2Proof.Machine

namespace Sys2Proof.Machine

/-! ### The CPU step, one equation per line of the opcode map (41_cpu_step.md R154) -/

section
variable {s : State}

theorem cpuStep_of_nop (h : s.fetchOpcode = opNop) : cpuStep s = .next (s.finishStep (s.pc.toNat + 1)) := by
  rw [cpuStep, State.fetchInstr, h]; rfl

theorem cpuStep_of_jmp (h : s.fetchOpcode = opJmp) :
    cpuStep s = .next (s.setPc (wordOfBytes (s.fetchOperand 1) (s.fetchOperand 2))) := by
  rw [cpuStep, State.fetchInstr, h, ← wrapPc_word (wordOfBytes _ _)]; rfl

theorem cpuStep_of_lda (h : s.fetchOpcode = opLda) :
    cpuStep s = .next ((s.setReg .a (s.fetchOperand 1)).finishStep (s.pc.toNat + 2)) := by
  rw [cpuStep, State.fetchInstr, h]; rfl

theorem cpuStep_of_dnop (h : (Instr.dnop s.fetchOpcode).wellFormed = true) :
    cpuStep s = .next (s.finishStep (s.pc.toNat + 1)) := by
  obtain ⟨hnop, hjmp, hlda⟩ := Instr.wellFormed_dnop_iff.mp h
  rw [cpuStep, State.fetchInstr, decodeBytes, if_neg hnop, if_neg hjmp, if_neg hlda, exec_dnop]

end

/-- Settles O11: each branch is the equation of its opcode. -/
theorem cpuStepFollowsTheOpcode : Obligations.CpuStepFollowsTheOpcode := by
  intro s opcode operand advance
  split_ifs with hnop hjmp hlda
  · exact cpuStep_of_nop hnop
  · rw [← wordOfBytes_eq_ofNat]
    exact cpuStep_of_jmp hjmp
  · exact cpuStep_of_lda hlda
  · exact cpuStep_of_dnop (Instr.wellFormed_dnop_iff.mpr ⟨hnop, hjmp, hlda⟩)

/-- Settles O12: ending the CPU step writes `PC`, and only `LDA` writes a register before it. -/
theorem instructionsChangeOnlyPcAndLdaAlsoA : Obligations.InstructionsChangeOnlyPcAndLdaAlsoA := by
  intro i s t h
  obtain ⟨npc, rfl, -⟩ | ⟨n, rfl, rfl⟩ := exec_cases h
  · simp
  · exact ⟨fun hne => absurd rfl (hne n), by simp⟩

/-! ### The program counter without a `JMP` (41_cpu_step.md R153, R158) -/

/-- An instruction that is no `JMP` advances `PC` by its length. -/
theorem cpuStep_pc_of_ne_jmp {s u : State} (hne : s.fetchOpcode ≠ opJmp) (h : cpuStep s = .next u) :
    u.pc = wrapPc (s.pc.toNat + instrLength s.fetchOpcode) := by
  obtain ⟨hop, -⟩ | ⟨hop, -⟩ | ⟨hop, -⟩ | ⟨hwf, -⟩ :=
    decodeBytes_cases s.fetchOpcode (s.fetchOperand 1) (s.fetchOperand 2)
  · obtain rfl := Host.Outcome.next.inj ((cpuStep_of_nop hop).symm.trans h)
    rw [hop]; rfl
  · exact absurd hop hne
  · obtain rfl := Host.Outcome.next.inj ((cpuStep_of_lda hop).symm.trans h)
    rw [hop]; rfl
  · obtain rfl := Host.Outcome.next.inj ((cpuStep_of_dnop hwf).symm.trans h)
    rw [instrLength_of_wellFormed_dnop hwf]; rfl

theorem instrLength_of_ne_jmp {b : Byte} (h : b ≠ opJmp) : 1 ≤ instrLength b ∧ instrLength b ≤ 2 := by
  rw [instrLength, if_neg h]
  split <;> decide

/-- `PC` advanced by one or two goes up by that much, or wraps from one of the last two addresses (D7, log 10). -/
theorem wrapPc_advance (pc : Word) {n : Nat} (hn : 1 ≤ n ∧ n ≤ 2) :
    (pc.toNat < (wrapPc (pc.toNat + n)).toNat ∧ (wrapPc (pc.toNat + n)).toNat ≤ pc.toNat + 2) ∨
    (0xFFFE ≤ pc.toNat ∧ wrapPc (pc.toNat + n) = 0x8000) := by
  by_cases hw : 0xFFFF < pc.toNat + n
  · exact .inr ⟨by omega, wrapPc_of_gt hw⟩
  · rw [wrapPc_toNat, if_neg hw]
    exact .inl ⟨by omega, by omega⟩

/-- Settles O13: what follows the CPU step leaves `PC`, and both targets of the wrap lie in the program region. -/
theorem withoutJmpProgramCounterGoesUpOrWraps : Obligations.WithoutJmpProgramCounterGoesUpOrWraps := by
  intro s t hr h (hne : s.fetchOpcode ≠ opJmp)
  obtain ⟨hidle, -⟩ | ⟨-, u, hu, rfl⟩ := step_cases h
  · exact absurd hidle hr
  · rw [State.afterCpu_pc, cpuStep_pc_of_ne_jmp hne hu]
    have hpc := wrapPc_advance s.pc (instrLength_of_ne_jmp hne)
    refine ⟨hpc, fun hregion => ?_⟩
    obtain ⟨hup, -⟩ | ⟨-, hwrap⟩ := hpc
    · exact hregion.trans hup.le
    · rw [hwrap]; decide

/-- Settles O15: an idle engine answers its host's step, and a running one completes its iteration. -/
theorem everyStepCompletes : Obligations.EveryStepCompletes := by
  intro s
  by_cases hr : s.remaining = 0
  · exact ⟨_, step_of_idle hr⟩
  · obtain ⟨pc, a, h⟩ := step_iterates hr
    exact ⟨_, h⟩

/-! ### A word stored where the next step fetches (log 26) -/

/-- Operand addresses wrap (20_memory.md R68), so the bytes of one instruction lie at different addresses. -/
theorem operandAddr_ne {pc : Word} {j k : Nat} (hjk : j < k) (hk : k < memSize) :
    operandAddr pc j ≠ operandAddr pc k := by
  simp only [operandAddr, memSize] at hk ⊢
  omega

theorem operandAddr_zero (pc : Word) : operandAddr pc 0 = pc.toNat := Nat.mod_eq_of_lt pc.isLt

theorem pc_ne_operandAddr {pc : Word} {k : Nat} (h0 : 0 < k) (hk : k < memSize) : pc.toNat ≠ operandAddr pc k := by
  rw [← operandAddr_zero]
  exact operandAddr_ne h0 hk

section
variable {s : State} (h : s.mem.wf memSize = true) (b0 b1 b2 : Byte)
include h

theorem State.read_storeInstr (a : Nat) :
    (s.storeInstr b0 b1 b2).mem.read a =
      if a = operandAddr s.pc 2 then b2 else if a = operandAddr s.pc 1 then b1
      else if a = s.pc.toNat then b0 else s.mem.read a := by
  have h0 := Memory.write_wf b0 s.pc.isLt h
  have h1 := Memory.write_wf b1 (Nat.mod_lt (s.pc.toNat + 1) (by decide)) h0
  rw [State.storeInstr_mem, Memory.read_write h1, Memory.read_write h0, Memory.read_write h]
  rfl

/-- The bytes stored are the bytes fetched (41_cpu_step.md R151). -/
theorem State.fetchInstr_storeInstr : (s.storeInstr b0 b1 b2).fetchInstr = decodeBytes b0 b1 b2 := by
  have h01 : s.pc.toNat ≠ operandAddr s.pc 1 := pc_ne_operandAddr (by decide) (by decide)
  have h02 : s.pc.toNat ≠ operandAddr s.pc 2 := pc_ne_operandAddr (by decide) (by decide)
  have h12 : operandAddr s.pc 1 ≠ operandAddr s.pc 2 := operandAddr_ne (by decide) (by decide)
  simp only [State.fetchInstr, State.fetchOpcode, State.fetchOperand, State.loadByte, State.storeInstr_pc,
    State.read_storeInstr h, h01, h02, h12, if_true, if_false]

end

/-- A running engine fetches what it fetched before. -/
theorem State.fetchInstr_running (s : State) : s.running.fetchInstr = s.fetchInstr := rfl

theorem State.running_remaining_ne_zero (s : State) : s.running.remaining ≠ 0 := by
  rw [State.running_remaining]
  split
  · decide
  · assumption

/-- The three bytes of an opcode-table word always hold a whole instruction (30_encoding.md R98). -/
theorem decodeTableWord_eq (nbits w : Nat) :
    decodeTableWord nbits w
      = some (decodeBytes (tableByte nbits w 0) (tableByte nbits w 1) (tableByte nbits w 2)) := by
  have hlen : instrLength (tableByte nbits w 0) ≤ 3 := by
    unfold instrLength
    split_ifs <;> decide
  rw [decodeTableWord, tableBytes, decode_cons_eq_ok_iff.mpr ⟨hlen, rfl, rfl⟩]
  rfl

/-- Settles O57: the next step decodes the three bytes stored, and so does the decoder of the table. -/
theorem withFetchWordIsWhatIsFetched : Obligations.WithFetchWordIsWhatIsFetched := by
  intro s nbits w h
  refine ⟨?_, State.running_remaining_ne_zero _, rfl, fun a h0 h1 h2 => ?_⟩
  · rw [decodeTableWord_eq, State.withFetchWord, State.fetchInstr_running, State.fetchInstr_storeInstr h]
  · rw [State.withFetchWord, State.running_mem, State.read_storeInstr h]
    exact (if_neg h2).trans ((if_neg h1).trans (if_neg h0))

end Sys2Proof.Machine

namespace Sys2Proof

/-! ### The no-operations in the decoder (42_no_operation.md) -/

theorem decodeBytes_nop (b1 b2 : Byte) : decodeBytes opNop b1 b2 = .nop := rfl

theorem decodeBytes_dnop {b : Byte} (hnop : b ≠ opNop) (hjmp : b ≠ opJmp) (hlda : b ≠ opLda) (b1 b2 : Byte) :
    decodeBytes b b1 b2 = .dnop b := by
  rw [decodeBytes, if_neg hnop, if_neg hjmp, if_neg hlda]

/-- Settles O6: an opcode that is neither `JMP` nor `LDA` decodes to `NOP` or to its own `DNOP`. -/
theorem noOperationIgnoresFollowingBytes : Obligations.NoOperationIgnoresFollowingBytes := by
  intro b b1 b2 c1 c2 hjmp hlda
  by_cases hnop : b = opNop
  · rw [hnop, decodeBytes_nop, decodeBytes_nop]
  · rw [decodeBytes_dnop hnop hjmp hlda, decodeBytes_dnop hnop hjmp hlda]

end Sys2Proof

namespace Sys2Proof.Machine

/-! ### The no-operations in the CPU step (42_no_operation.md R170, R171) -/

/-- `PC` after an instruction of one byte (41_cpu_step.md R153; D7, log 10). -/
theorem wrapPc_succ (pc : Word) : wrapPc (pc.toNat + 1) = if pc.toNat + 1 > 0xFFFF then 0x8000 else pc + 1 := by
  rw [wrapPc, BitVec.ofNat_add, BitVec.ofNat_toNat, BitVec.setWidth_eq]
  rfl

/-- The end of a CPU step whose instruction has one byte. -/
theorem State.finishStep_succ (s : State) :
    s.finishStep (s.pc.toNat + 1) = { s with pc := if s.pc.toNat + 1 > 0xFFFF then 0x8000 else s.pc + 1 } := by
  rw [State.finishStep, wrapPc_succ, State.setPc]

theorem State.fetchInstr_of_nop {s : State} (h : s.fetchOpcode = opNop) : s.fetchInstr = .nop := by
  rw [State.fetchInstr, h, decodeBytes_nop]

/-- Settles O7: `NOP` ends its CPU step one byte further on and does nothing else. -/
theorem nopOnlyAdvancesProgramCounter : Obligations.NopOnlyAdvancesProgramCounter := by
  refine ⟨rfl, fun _ => State.fetchInstr_of_nop, fun s => ?_⟩
  rw [exec_nop, State.finishStep_succ]

/-- Settles O8: a byte that names no other instruction is fetched as its own `DNOP`, which acts as `NOP` does. -/
theorem defaultNopOnlyAdvancesProgramCounter : Obligations.DefaultNopOnlyAdvancesProgramCounter := by
  refine ⟨fun _ => rfl, ?_, fun b s => ?_⟩
  · rintro s _ rfl hnop hjmp hlda
    exact decodeBytes_dnop hnop hjmp hlda _ _
  · rw [exec_dnop, State.finishStep_succ]

end Sys2Proof.Machine

namespace Sys2Proof.Machine

/-! ### The jump in the CPU step (43_jump.md R180) -/

/-- The end of a CPU step whose next `PC` is a word: the wrap never fires (43_jump.md R180). -/
theorem State.finishStep_word (s : State) (w : Word) : s.finishStep w.toNat = { s with pc := w } := by
  rw [State.finishStep, wrapPc_word, State.setPc]

/-- Settles O9: `JMP` ends its CPU step at the target, which is a word, so that no wrap changes it. -/
theorem jmpSetsProgramCounterToItsTarget : Obligations.JmpSetsProgramCounterToItsTarget := by
  intro target s
  rw [exec_jmp, State.finishStep_word]

end Sys2Proof.Machine

namespace Sys2Proof.Machine

/-! ### The load in the CPU step (44_load_accumulator.md R190, R191) -/

/-- `PC` after an instruction of any length `n` (41_cpu_step.md R153; D7, log 10). -/
theorem wrapPc_add (pc : Word) (n : Nat) :
    wrapPc (pc.toNat + n) = if pc.toNat + n > 0xFFFF then 0x8000 else pc + BitVec.ofNat 16 n := by
  split
  case isTrue hpast => exact wrapPc_of_gt hpast
  case isFalse hfits =>
    rw [wrapPc_of_le (Nat.le_of_not_gt hfits), BitVec.ofNat_add, BitVec.ofNat_toNat, BitVec.setWidth_eq]

/-- Settles O10: `LDA` writes `A`, and ends its CPU step two bytes further on. -/
theorem ldaLoadsAccumulatorAndAdvancesByTwo : Obligations.LdaLoadsAccumulatorAndAdvancesByTwo := by
  intro imm s
  rw [exec_lda, State.finishStep, wrapPc_add]
  rfl

end Sys2Proof.Machine

namespace Sys2Proof.Machine

/-! ### The picture-unit step, one equation per place in the scan (45_ppu_step.md R201 to R203) -/

section
variable {s : State}

theorem State.ppuStep_within_line (hc : s.cycle + 1 ≠ 341) : s.ppuStep = { s with cycle := s.cycle + 1 } := by
  rw [State.ppuStep, if_neg hc, State.setCounters]

theorem State.ppuStep_at_line_end (hc : s.cycle + 1 = 341) (hl : s.scanline + 1 ≠ 262) :
    s.ppuStep = { s with cycle := 0, scanline := s.scanline + 1 } := by
  rw [State.ppuStep, if_pos hc, if_neg hl, State.setCounters]

theorem State.ppuStep_at_frame_end (hc : s.cycle + 1 = 341) (hl : s.scanline + 1 = 262) :
    s.ppuStep = { s with cycle := 0, scanline := 0, frame := s.frame + 1,
                         outputs := .renderFrame (framebuffer s.mem (s.frame + 1)) :: s.outputs } := by
  rw [State.ppuStep, if_pos hc, if_pos hl]
  rfl

end

/-- Settles O20: 340 and 261 are the last cycle and the last line. -/
theorem scanWrapEmitsOneFramebuffer : Obligations.ScanWrapEmitsOneFramebuffer :=
  fun _ hc hl => State.ppuStep_at_frame_end (congrArg (· + 1) hc) (congrArg (· + 1) hl)

/-- Settles O19: the equations of the step, and the one framebuffer counted at the end of the frame. -/
theorem cycleAndScanlineCount : Obligations.CycleAndScanlineCount := by
  refine fun s => ⟨State.ppuStep_within_line, State.ppuStep_at_line_end, fun hc hl => ?_⟩
  rw [State.ppuStep_at_frame_end hc hl]
  exact ⟨rfl, rfl, rfl, rfl⟩

/-! ### The scan clock (45_ppu_step.md R205) -/

/-- The frame count and the scan position as one number, which a picture-unit step raises by one whether it wraps or
not: the law of R205 is its quotient and remainder by the 89,342 steps of a frame. -/
def State.scanClock (s : State) : Nat := s.frame * 89342 + s.scanPos

theorem State.scanPos_lt {s : State} (h : s.countersInRange) : s.scanPos < 89342 := by
  obtain ⟨hcycle, hline⟩ := h
  simp only [State.scanPos, cyclesPerLine, linesPerFrame] at *
  omega

theorem State.setCounters_scanClock (s : State) (c l f : Nat) :
    (s.setCounters c l f).scanClock = f * 89342 + (l * 341 + c) := rfl

theorem State.produceFramebuffer_scanClock (s : State) : s.produceFramebuffer.scanClock = s.scanClock := rfl

theorem State.ppuStep_scanClock (s : State) : s.ppuStep.scanClock = s.scanClock + 1 := by
  have hs : s.scanClock = s.frame * 89342 + (s.scanline * 341 + s.cycle) := rfl
  obtain ⟨-, e⟩ | ⟨hc, -, e⟩ | ⟨hc, hl, e⟩ := s.ppuStep_cases
  · rw [e, State.setCounters_scanClock]; omega
  · rw [e, State.setCounters_scanClock]; omega
  · rw [e, State.produceFramebuffer_scanClock, State.setCounters_scanClock]; omega

/-- A framebuffer is handed out in the steps that count a frame, and in no other (45_ppu_step.md R203). -/
theorem State.ppuStep_framesEmitted (s : State) :
    s.ppuStep.framesEmitted + s.frame = s.framesEmitted + s.ppuStep.frame := by
  obtain ⟨-, e⟩ | ⟨-, -, e⟩ | ⟨-, -, e⟩ := s.ppuStep_cases <;> rw [e]
  · rfl
  · rfl
  · exact Nat.add_right_comm s.framesEmitted 1 s.frame

/-- The law of R205, read off the scan clocks of two states between which each frame counted was handed out. -/
theorem State.scan_law {s t : State} {n : Nat} (ht : t.countersInRange) (hclock : t.scanClock = s.scanClock + n)
    (hemit : t.framesEmitted + s.frame = s.framesEmitted + t.frame) :
    t.scanPos = (s.scanPos + n) % 89342 ∧ t.frame = s.frame + (s.scanPos + n) / 89342 ∧
      t.framesEmitted = s.framesEmitted + (s.scanPos + n) / 89342 := by
  have hlt := State.scanPos_lt ht
  simp only [State.scanClock] at hclock
  omega

/-- Settles O21: the law for one step, where the quotient is 1 when the new position is 0 and 0 otherwise. -/
theorem scanPositionAdvancesByOne : Obligations.ScanPositionAdvancesByOne := by
  intro s h
  have h' := State.ppuStep_countersInRange h
  have hlaw := State.scan_law h' s.ppuStep_scanClock s.ppuStep_framesEmitted
  have hwrap : (s.scanPos + 1) / 89342 = if s.ppuStep.scanPos = 0 then 1 else 0 := by
    have hlt := State.scanPos_lt h
    split <;> omega
  rw [hwrap] at hlaw
  exact ⟨h', hlaw⟩

/-! ### Iterations of a `runFrame` in progress (47_frame_loop_and_host.md R231, R234) -/

theorem State.afterCpu_scanClock (s : State) : s.afterCpu.scanClock = s.scanClock + 1 := by
  rw [← State.ppuStep_scanClock, State.scanClock, State.scanPos, State.afterCpu_frame, State.afterCpu_scanline,
    State.afterCpu_cycle, ← State.scanPos, ← State.scanClock]

theorem State.afterCpu_countersInRange {s : State} (h : s.countersInRange) : s.afterCpu.countersInRange := by
  rw [State.countersInRange, State.afterCpu_cycle, State.afterCpu_scanline]
  exact State.ppuStep_countersInRange h

theorem State.afterCpu_framesEmitted (s : State) :
    s.afterCpu.framesEmitted + s.frame = s.framesEmitted + s.afterCpu.frame := by
  rw [State.framesEmitted, State.afterCpu_outputs, State.afterCpu_frame, ← State.ppuStep_framesEmitted]
  rfl

/-- What `n` iterations make of the counters, the display, the polls and the operation in progress. -/
structure State.IteratesTo (s : State) (n : Nat) (t : State) : Prop where
  countersInRange : s.countersInRange → t.countersInRange
  scanClock : t.scanClock = s.scanClock + n
  framesEmitted : t.framesEmitted + s.frame = s.framesEmitted + t.frame
  polls : t.polls = s.polls + n
  remaining : t.remaining = s.remaining - n
  pending : t.pending = s.pending

namespace State.IteratesTo

theorem zero (s : State) : s.IteratesTo 0 s := ⟨id, (Nat.add_zero _).symm, rfl, rfl, rfl, rfl⟩

theorem trans {s u t : State} {m n : Nat} (h : s.IteratesTo m u) (h' : u.IteratesTo n t) : s.IteratesTo (m + n) t where
  countersInRange hs := h'.countersInRange (h.countersInRange hs)
  scanClock := by rw [h'.scanClock, h.scanClock, Nat.add_assoc]
  framesEmitted := by have := h.framesEmitted; have := h'.framesEmitted; omega
  polls := by rw [h'.polls, h.polls, Nat.add_assoc]
  remaining := by rw [h'.remaining, h.remaining, Nat.sub_sub]
  pending := h'.pending.trans h.pending

theorem afterCpu (s : State) : s.IteratesTo 1 s.afterCpu where
  countersInRange := State.afterCpu_countersInRange
  scanClock := s.afterCpu_scanClock
  framesEmitted := s.afterCpu_framesEmitted
  polls := s.afterCpu_polls
  remaining := s.afterCpu_remaining
  pending := s.afterCpu_pending

/-- The instruction's writes, of `PC` and `A`, show in none of this. -/
theorem of_pc_a {s t : State} {n : Nat} {pc : Word} {a : Byte}
    (h : ({ s with pc := pc, a := a } : State).IteratesTo n t) : s.IteratesTo n t where
  countersInRange := h.countersInRange
  scanClock := h.scanClock
  framesEmitted := h.framesEmitted
  polls := h.polls
  remaining := h.remaining
  pending := h.pending

end State.IteratesTo

theorem core_run_succ {M : Host.Core} {s u : M.State} (h : M.step s = .next u) (n : Nat) :
    M.run (n + 1) s = M.run n u := by
  rw [Host.Core.run, h]

theorem State.runsTo_succ {s u t : State} {n : Nat} (h : step s = .next u) (hu : u.runsTo n t) :
    s.runsTo (n + 1) t :=
  (core_run_succ (M := core) h n).trans hu

/-- A `runFrame` in progress completes every iteration it has left. -/
theorem State.exists_runsTo_iteratesTo (n : Nat) (s : State) (hn : n ≤ s.remaining) :
    ∃ t, s.runsTo n t ∧ s.IteratesTo n t := by
  induction n generalizing s with
  | zero => exact ⟨s, rfl, .zero s⟩
  | succ n ih =>
    obtain ⟨pc, a, hstep⟩ := step_iterates (s := s) (by omega)
    have hone := (State.IteratesTo.afterCpu { s with pc := pc, a := a }).of_pc_a
    obtain ⟨t, hrun, hrest⟩ := ih _ (by rw [hone.remaining]; omega)
    exact ⟨t, State.runsTo_succ hstep hrun, Nat.add_comm 1 n ▸ hone.trans hrest⟩

/-- Settles O22: every iteration raises the scan clock by one, and the law is read off the clock after the last. -/
theorem scanPositionLawOverIterations : Obligations.ScanPositionLawOverIterations := by
  intro n s hs hn
  obtain ⟨t, hrun, h⟩ := State.exists_runsTo_iteratesTo n s hn
  have ht := h.countersInRange hs
  obtain ⟨hpos, hframe, hemit⟩ := State.scan_law ht h.scanClock h.framesEmitted
  exact ⟨t, hrun, ht, hpos, hframe, hemit, h.polls, h.remaining, h.pending⟩

end Sys2Proof.Machine

namespace Sys2Proof.Machine

/-! ### Pixels and the address they sample (46_framebuffer.md R217 to R219) -/

theorem toNat_append_byte {n : Nat} (w : BitVec n) (b : Byte) : (w ++ b).toNat = w.toNat * 2 ^ 8 + b.toNat := by
  rw [BitVec.toNat_append, ← Nat.shiftLeft_add_eq_or_of_lt b.isLt, Nat.shiftLeft_eq]

/-- The bytes of a pixel are its digits in base 256 (46_framebuffer.md R219). -/
theorem packPixel_toNat (blue green red : Byte) :
    (packPixel blue green red).toNat
      = 255 * 2 ^ 24 + blue.toNat * 2 ^ 16 + green.toNat * 2 ^ 8 + red.toNat := by
  have halpha : (0xFF : Byte).toNat = 255 := rfl
  rw [packPixel, toNat_append_byte, toNat_append_byte, toNat_append_byte, halpha]
  omega

theorem redChannel_toNat (v : Byte) (frame : Nat) : (redChannel v frame).toNat = (v.toNat + frame) % 256 := by
  rw [redChannel, BitVec.toNat_ofNat, Nat.mod_mod]

theorem greenChannel_toNat (v : Byte) (x : Nat) : (greenChannel v x).toNat = (v.toNat * 2 + x) % 256 := by
  rw [greenChannel, BitVec.toNat_ofNat, Nat.mod_mod]

theorem blueChannel_toNat (v : Byte) (y : Nat) : (blueChannel v y).toNat = (v.toNat * 3 + y) % 256 := by
  rw [blueChannel, BitVec.toNat_ofNat, Nat.mod_mod]

theorem pixelAt_toNat (m : Memory) (frame x y : Nat) :
    (pixelAt m frame x y).toNat
      = 255 * 2 ^ 24 + (((m.read (sampleAddr x y)).toNat * 3 + y) % 256) * 2 ^ 16
        + (((m.read (sampleAddr x y)).toNat * 2 + x) % 256) * 2 ^ 8
        + ((m.read (sampleAddr x y)).toNat + frame) % 256 := by
  rw [pixelAt, packPixel_toNat, blueChannel_toNat, greenChannel_toNat, redChannel_toNat]

/-- The first 128 rows sample the 32 KiB of the program region, one row after another. -/
theorem sampleAddr_of_lt {x y : Nat} (hx : x < 256) (hy : y < 128) : sampleAddr x y = 0x8000 + x + y * 256 := by
  rw [sampleAddr, Nat.mod_eq_of_lt (by simp only [fbWidth, fbMemMod]; omega), ← Nat.add_assoc]

/-- 128 rows are the whole region: the sampled addresses start over after them. -/
theorem sampleAddr_add_128 (x y : Nat) : sampleAddr x (y + 128) = sampleAddr x y := by
  simp only [sampleAddr, fbWidth, fbMemMod, Nat.add_mul, ← Nat.add_assoc, Nat.reduceMul, Nat.add_mod_right]

/-- Every sample lies in the program region. -/
theorem sampleAddr_mem_program (x y : Nat) : 0x8000 ≤ sampleAddr x y ∧ sampleAddr x y ≤ 0xFFFF := by
  simp only [sampleAddr, fbMemBase, fbMemMod]
  omega

/-- Settles O25: the packed channels of R218, and the rows of the sampled addresses, the lower ones moved up by 128. -/
theorem pixelValueFromItsSample : Obligations.PixelValueFromItsSample := by
  intro m frame x y hx hy
  refine ⟨pixelAt_toNat m frame x y, sampleAddr_of_lt hx, fun h => ?_⟩
  obtain ⟨r, rfl⟩ := Nat.exists_eq_add_of_le' h
  rw [sampleAddr_add_128, sampleAddr_of_lt hx (by omega), Nat.add_sub_cancel]

/-! ### The framebuffer's elements (46_framebuffer.md R216, R221) -/

theorem framebuffer_length (m : Memory) (frame : Nat) : (framebuffer m frame).length = 61440 := by
  rw [framebuffer, List.length_map, List.length_range, fbWidth, fbHeight]

theorem framebuffer_getElem? (m : Memory) (frame : Nat) {i : Nat} (hi : i < 61440) :
    (framebuffer m frame)[i]? = some (pixelAt m frame (i % 256) (i / 256)) := by
  rw [framebuffer, fbWidth, fbHeight, List.getElem?_map, List.getElem?_range hi, Option.map_some]

/-- Settles O26: the column and the row are the remainder and the quotient of the index by the width. -/
theorem framebufferHoldsEveryPixelAtItsIndex : Obligations.FramebufferHoldsEveryPixelAtItsIndex := by
  refine fun m frame => ⟨framebuffer_length m frame, fun x y hx hy => ?_⟩
  have hcol : (x + y * 256) % 256 = x := by omega
  have hrow : (x + y * 256) / 256 = y := by omega
  rw [framebuffer_getElem? m frame (by omega), hcol, hrow]

/-! ### What the framebuffer depends on (46_framebuffer.md R215) -/

/-- The frame counter enters a pixel through its red channel alone, which counts modulo 256. -/
theorem redChannel_congr (v : Byte) {f f' : Nat} (h : f % 256 = f' % 256) : redChannel v f = redChannel v f' := by
  rw [redChannel, redChannel, Nat.add_mod, h, ← Nat.add_mod]

/-- A pixel reads one byte of memory. -/
theorem pixelAt_congr {m m' : Memory} {f f' x y : Nat} (hm : m.read (sampleAddr x y) = m'.read (sampleAddr x y))
    (hf : f % 256 = f' % 256) : pixelAt m f x y = pixelAt m' f' x y := by
  rw [pixelAt, pixelAt, hm, redChannel_congr _ hf]

/-- Settles O27: every pixel samples the program region. -/
theorem framebufferReadsOnlyProgramRegionAndFrame : Obligations.FramebufferReadsOnlyProgramRegionAndFrame := by
  intro m m' f f' hm hf
  refine List.map_congr_left fun i _ => pixelAt_congr ?_ hf
  obtain ⟨hlo, hhi⟩ := sampleAddr_mem_program (i % fbWidth) (i / fbWidth)
  exact hm _ hlo hhi

end Sys2Proof.Machine

namespace Sys2Proof.Machine

/-! ### `runFrame` and `isLoaded` (47_frame_loop_and_host.md R234, R235, R244) -/

section
variable {s : State} {ops : List HostOp}

/-- A loaded engine that takes up `runFrame` has all 29,780 iterations before it. -/
theorem step_of_runFrame (h : s.issued .runFrame ops) (hl : s.loaded = true) :
    step s = .next { s with remaining := iterPerRunFrame, pending := ops } := by
  rw [step_of_issued h, State.takeOp_of_issued h, State.hostOp, State.beginRunFrame, if_pos hl]

theorem step_of_unloaded_runFrame (h : s.issued .runFrame ops) (hl : s.loaded = false) :
    step s = .next { s with pending := ops } := by
  rw [step_of_issued h, State.takeOp_of_issued h, State.hostOp, State.beginRunFrame, if_neg (ne_true_of_eq_false hl)]

theorem step_of_isLoaded (h : s.issued .isLoaded ops) :
    step s = .next { s with pending := ops, outputs := .loadedFlag s.loaded :: s.outputs } := by
  rw [step_of_issued h, State.takeOp_of_issued h]
  rfl

/-- The step that takes up `runFrame`, and `k` of its iterations. -/
theorem exists_runsTo_of_runFrame (h : s.issued .runFrame ops) (hl : s.loaded = true) {k : Nat} (hk : k ≤ 29780) :
    ∃ u, s.runsTo (k + 1) u ∧
      State.IteratesTo { s with remaining := iterPerRunFrame, pending := ops } k u := by
  obtain ⟨u, hrun, hu⟩ := State.exists_runsTo_iteratesTo k { s with remaining := iterPerRunFrame, pending := ops } hk
  exact ⟨u, State.runsTo_succ (step_of_runFrame h hl) hrun, hu⟩

/-- A `runFrame` is shorter than a frame, so it reaches at most one frame's end, and one only from scan position
59,562 = 89,342 - 29,780 on (45_ppu_step.md R206). -/
theorem State.runFrame_frames (h : s.countersInRange) :
    (s.scanPos + 29780) / 89342 = if 59562 ≤ s.scanPos then 1 else 0 := by
  have hlt := State.scanPos_lt h
  split <;> omega

end

/-- Settles O23: the scan law for the 29,780 iterations that follow the step which takes up the operation. -/
theorem runFrameDoesItsIterations : Obligations.RunFrameDoesItsIterations := by
  intro s ops h hl hs
  refine ⟨fun k hk => ?_, ?_⟩
  · obtain ⟨u, hrun, hu⟩ := exists_runsTo_of_runFrame h hl hk
    exact ⟨u, hrun, hu.remaining, hu.polls, hu.pending⟩
  · obtain ⟨t, hrun, ht⟩ := exists_runsTo_of_runFrame h hl le_rfl
    have hlaw := State.scan_law (s := s) (ht.countersInRange hs) ht.scanClock ht.framesEmitted
    rw [State.runFrame_frames hs] at hlaw
    exact ⟨t, hrun, ht.remaining.trans (Nat.sub_self _), hlaw⟩

/-- Settles O24: an engine that is not loaded only takes the operation from the queue. -/
theorem unloadedRunFrameDoesNothing : Obligations.UnloadedRunFrameDoesNothing :=
  fun _ _ => step_of_unloaded_runFrame

/-- Settles O43: the one field written besides the queue is the record of what was handed out. -/
theorem isLoadedReturnsTheFlag : Obligations.IsLoadedReturnsTheFlag :=
  fun _ _ => step_of_isLoaded

/-! ### The idle step and the running step (60_exceptions.md R272; 47_frame_loop_and_host.md R231) -/

/-- Settles O18: a host step with an empty queue is no change. -/
theorem idleEngineKeepsAllState : Obligations.IdleEngineKeepsAllState := by
  intro s hr hp
  rw [step_of_idle hr, State.hostStep_of_nil hp]

theorem step_eq_iteration {s : State} (hr : s.remaining ≠ 0) : step s = iteration s := if_neg hr

/-- The bytes at `PC`, `PC + 1` and `PC + 2` modulo 65,536 are the bytes that the CPU step decodes (20_memory.md R68;
D6, log 9). -/
theorem State.fetchInstr_of_decode {s : State} {i : Instr} {rest : List Byte}
    (h : decode [s.fetchOpcode, s.fetchOperand 1, s.fetchOperand 2] = .ok (i, rest)) : s.fetchInstr = i := by
  obtain ⟨-, hi, -⟩ := decode_cons_eq_ok_iff.mp h
  exact hi

/-- Settles O14: a running engine's step is an iteration, whose CPU step executes what those bytes decode to. -/
theorem stepRunsTheDecodedInstruction : Obligations.StepRunsTheDecodedInstruction := by
  intro s i rest hr h
  obtain rfl := State.fetchInstr_of_decode h
  exact step_eq_iteration hr

/-! ### The input step and the input byte (47_frame_loop_and_host.md R232, R233) -/

/-- Settles O28: one byte written to canonical memory, and one answer used. -/
theorem inputStepStoresThePackedAnswer : Obligations.InputStepStoresThePackedAnswer := by
  intro s h
  refine ⟨fun a => ?_, rfl, fun _ _ => State.nextAnswer_cons, State.nextAnswer_nil⟩
  rw [State.inputStep_mem, Memory.read_write h]
  rfl

/-- The mask of bit `j` has no other bit, so bit `k` of the input byte is the `k`-th button of the order. -/
theorem packButtons_getLsbD (o : ButtonOrder) (b : Buttons) {k : Nat} (hk : k < 8) :
    (packButtons o b).getLsbD k = buttonPressed b (o.button k) := by
  simp only [packButtons, BitVec.getLsbD_or, buttonMask_getLsbD]
  interval_cases k <;> simp [ButtonOrder.button]

/-- A byte as the sum of its bits. -/
theorem byte_toNat_eq_bits (w : Byte) :
    w.toNat = (w.getLsbD 0).toNat + 2 * (w.getLsbD 1).toNat + 4 * (w.getLsbD 2).toNat + 8 * (w.getLsbD 3).toNat +
      16 * (w.getLsbD 4).toNat + 32 * (w.getLsbD 5).toNat + 64 * (w.getLsbD 6).toNat + 128 * (w.getLsbD 7).toNat := by
  have hw := w.isLt
  simp only [BitVec.getLsbD, Nat.toNat_testBit]
  omega

/-- Settles O29: in the listing order the sum of the bits is the sum of the buttons. -/
theorem inputByteBitsAreTheButtons : Obligations.InputByteBitsAreTheButtons := by
  refine ⟨fun o b k => packButtons_getLsbD o b, fun b => ?_⟩
  rw [byte_toNat_eq_bits]
  simp (disch := decide) only [packButtons_getLsbD]
  rfl

/-! ### Reset (70_reset_and_hazards.md R291 to R295) -/

/-- Settles O30: each of these fields is written with a constant. -/
theorem resetRestoresRegistersAndCounters : Obligations.ResetRestoresRegistersAndCounters :=
  fun _ _ h => ⟨_, step_of_issued h, rfl, rfl, rfl, rfl, rfl, rfl, rfl, rfl, rfl⟩

section
variable (s : State)

/-- The reset vector is little-endian (20_memory.md R62). -/
theorem State.resetVector_eq :
    s.resetVector =
      (s.mem.read s.config.resetVec.val).toNat + 256 * (s.mem.read (s.config.resetVec.val + 1)).toNat := rfl

theorem State.resetVector_lt : s.resetVector < 2 ^ 16 := by
  have hlo := (s.mem.read s.config.resetVec.val).isLt
  have hhi := (s.mem.read (s.config.resetVec.val + 1)).isLt
  rw [State.resetVector_eq]
  omega

theorem State.resetPc_toNat : s.resetPc.toNat = if s.resetVector = 0 then 0x8000 else s.resetVector := by
  unfold State.resetPc
  split
  · rfl
  · rw [BitVec.toNat_ofNat, Nat.mod_eq_of_lt s.resetVector_lt]

/-- Reset writes neither memory nor `RESET_VEC`, so a second reset finds the same vector. -/
theorem State.resetEngine_resetEngine : s.resetEngine.resetEngine = s.resetEngine := by
  ext1
  case pc =>
    rw [State.resetEngine_pc, State.resetEngine_pc]
    exact State.resetPc_congr s.resetEngine_mem s.resetEngine_config
  all_goals simp

end

/-- Settles O31: the vector is a word, so that `PC` takes it whole. -/
theorem resetTakesTheVectorOrFallsBack : Obligations.ResetTakesTheVectorOrFallsBack :=
  State.resetPc_toNat

/-- Settles O32: reset writes `PC`, the registers and the counters alone, and the same values each time. -/
theorem resetLeavesMemoryAndIsIdempotent : Obligations.ResetLeavesMemoryAndIsIdempotent :=
  fun s => ⟨s.resetEngine_resetEngine, fun _ => rfl, fun _ => rfl, fun _ => rfl, fun _ => rfl, rfl, rfl, rfl, rfl,
    rfl, rfl, rfl⟩

/-! ### The picture-unit counters (45_ppu_step.md R207; 60_exceptions.md R268) -/

/-- The counters, and what the engine has handed out: the framebuffers among it depend on the counters. -/
structure Display where
  cycle    : Nat
  scanline : Nat
  frame    : Nat
  outputs  : List Output

/-- The state with other counts and another record of what was handed out. -/
@[simps] def State.withDisplay (d : Display) (s : State) : State :=
  { s with cycle := d.cycle, scanline := d.scanline, frame := d.frame, outputs := d.outputs }

/-- What a state holds of these. -/
def State.display (s : State) : Display := ⟨s.cycle, s.scanline, s.frame, s.outputs⟩

section
variable (d : Display) (s : State)

theorem State.withDisplay_emit (o : Output) :
    (s.withDisplay d).emit o = (s.emit o).withDisplay { d with outputs := o :: d.outputs } := rfl

theorem State.withDisplay_placeImage (img : List Byte) :
    (s.withDisplay d).placeImage img = (s.placeImage img).withDisplay d := by
  ext1 <;> simp [State.placeImage_mem, State.placeImage_vram]

theorem State.withDisplay_beginRunFrame : (s.withDisplay d).beginRunFrame = s.beginRunFrame.withDisplay d := by
  ext1 <;> simp

theorem State.withDisplay_markLoaded : (s.withDisplay d).markLoaded = s.markLoaded.withDisplay d := rfl

/-- Reset zeroes the counters and hands nothing out. -/
theorem State.withDisplay_resetEngine :
    (s.withDisplay d).resetEngine = s.resetEngine.withDisplay ⟨0, 0, 0, d.outputs⟩ := by
  have hpc : (s.withDisplay d).resetPc = s.resetPc :=
    State.resetPc_congr (s.withDisplay_mem d) (s.withDisplay_config d)
  ext1 <;> simp [hpc]

theorem State.withDisplay_loadROM (img : List Byte) :
    ∃ e, (s.withDisplay d).loadROM img = (s.loadROM img).withDisplay e := by
  unfold State.loadROM
  split
  · exact ⟨_, s.withDisplay_emit d _⟩
  · rw [State.withDisplay_placeImage, State.withDisplay_markLoaded, State.withDisplay_resetEngine]
    exact ⟨_, State.withDisplay_emit ..⟩

theorem State.withDisplay_hostOp (op : HostOp) :
    ∃ e, (s.withDisplay d).hostOp op = (s.hostOp op).withDisplay e := by
  cases op with
  | loadROM img => exact s.withDisplay_loadROM d img
  | reset => exact ⟨_, s.withDisplay_resetEngine d⟩
  | runFrame => exact ⟨d, s.withDisplay_beginRunFrame d⟩
  | isLoaded => exact ⟨_, s.withDisplay_emit d _⟩

theorem State.withDisplay_exec (i : Instr) :
    ∃ u, exec i s = .next u ∧ exec i (s.withDisplay d) = .next (u.withDisplay d) := by
  cases i with
  | nop => exact ⟨_, rfl, rfl⟩
  | jmp target => exact ⟨_, rfl, rfl⟩
  | lda n => exact ⟨_, rfl, rfl⟩
  | dnop opcode => exact ⟨_, rfl, rfl⟩

/-- The picture-unit step writes the counters and the outputs alone, wherever in the scan it stands. -/
theorem State.withDisplay_ppuStep :
    (s.withDisplay d).ppuStep = s.ppuStep.withDisplay (s.withDisplay d).ppuStep.display := by
  ext1 <;> simp [State.display]

theorem State.withDisplay_afterCpu :
    (s.withDisplay d).afterCpu = s.afterCpu.withDisplay (s.withDisplay d).ppuStep.display := by
  rw [State.afterCpu, State.withDisplay_ppuStep]
  rfl

end

theorem withDisplay_uninfluential : Uninfluential State.withDisplay where
  remaining _ _ := rfl
  pending _ _ := rfl
  takeOp _ _ := rfl
  hostOp d s op := s.withDisplay_hostOp d op
  cpuStep d s := ⟨d, s.withDisplay_exec d s.fetchInstr⟩
  afterCpu d s := ⟨_, s.withDisplay_afterCpu d⟩

/-- Settles O52: no part of a step reads a counter, or what was handed out, into another field. -/
theorem countersAreInvisibleToPrograms : Obligations.CountersAreInvisibleToPrograms := by
  intro s t c l f h
  obtain ⟨d, hd⟩ := withDisplay_uninfluential.step ⟨c, l, f, s.outputs⟩ h
  exact ⟨t.withDisplay d, hd, rfl⟩

end Sys2Proof.Machine
